-- ==== Sys2Proof/Word.lean ====
section
/-! DEFINITION. The two word types of the 8085: the byte (00_scope.md R5, "data word / register width 8 bits") and the
16-bit word of register pairs, SP, PC and memory addresses. -/

namespace Sys2Proof

/-- A byte: a register, a memory cell, a port address or 8-bit data (00 R5, 10 R20). -/
abbrev Byte := BitVec 8

/-- A 16-bit word: a register pair, SP, PC or a memory address (00 R5, 10 R23 to R25). -/
abbrev Word := BitVec 16

end Sys2Proof
end

