-- ==== Sys2Proof/Machine/Bits.lean ====
section
/-! DEFINITION. Bit fields, byte order and the bit-to-number helpers of 00_scope.md R8, R9, R11. -/

namespace Sys2Proof.Machine

/-- `high(w) = w[15:8]` (00 R9). -/
def high (w : Word) : Byte := w.extractLsb' 8 8

/-- `low(w) = w[7:0]` (00 R9). -/
def low (w : Word) : Byte := w.extractLsb' 0 8

/-- `hi:lo`, the 16-bit value 256*hi + lo (00 R9). -/
def join (hi lo : Byte) : Word := hi ++ lo

/-- `v[i]` of a byte, as a one-bit value (00 R8). -/
def bit (v : Byte) (i : Nat) : Bool := v.getLsbD i

/-- The low nibble `v[3:0]` as a number (00 R8). -/
def lowNibble (v : Byte) : Nat := v.toNat % 16

/-- The high nibble `v[7:4]` as a number (00 R8). -/
def highNibble (v : Byte) : Nat := v.toNat / 16

/-- The byte whose bits, D7 first, are the eight given ones. -/
def byteOfBits (b7 b6 b5 b4 b3 b2 b1 b0 : Bool) : Byte :=
  BitVec.ofNat 8 (b7.toNat * 128 + b6.toNat * 64 + b5.toNat * 32 + b4.toNat * 16 +
    b3.toNat * 8 + b2.toNat * 4 + b1.toNat * 2 + b0.toNat)

/-- How many bits of a byte are 1. -/
def onesCount (v : Byte) : Nat :=
  (bit v 7).toNat + (bit v 6).toNat + (bit v 5).toNat + (bit v 4).toNat +
    (bit v 3).toNat + (bit v 2).toNat + (bit v 1).toNat + (bit v 0).toNat

/-- `parity_even(v)`: an even number of 1 bits (00 R11). -/
def parityEven (v : Byte) : Bool := onesCount v % 2 == 0

end Sys2Proof.Machine
end

