-- ==== Sys2Proof/Syntax.lean ====
section
/-! DEFINITION. The instructions of the 8085: one constructor of `Instr` for each row of spec/opcode_table.json, in the
table's order (30_encoding.md R82, R102). Each docstring gives the encoding and the rule of the meaning. -/

namespace Sys2Proof

/-- The seven general registers (10_state.md R20); code 110 of the field is `M` and no register (10 R22). -/
inductive Reg
  | b | c | d | e | h | l | a
  deriving DecidableEq, Repr

/-- The 16-bit operands that a pair field names (10 R23). PUSH and POP with field 11 are PSW and have constructors of
their own; LDAX and STAX have BC and DE only (30 R84). -/
inductive Pair
  | bc | de | hl | sp
  deriving DecidableEq, Repr

/-- The conditions of the conditional jumps, calls and returns (30 R86). -/
inductive Cond
  | nz | z | nc | c | po | pe | p | m
  deriving DecidableEq, Repr

/-- An instruction, with its operands decoded. -/
inductive Instr
  /-- MOV Rd,Rs: `01 DDD SSS` (40 R111). -/
  | movRR (rd : Reg) (rs : Reg)
  /-- MOV Rd,M: `01 DDD 110` (40 R112). -/
  | movRM (rd : Reg)
  /-- MOV M,Rs: `01 110 SSS` (40 R113). -/
  | movMR (rs : Reg)
  /-- MVI Rd,d8: `00 DDD 110`, d8 (40 R114). -/
  | mviR (rd : Reg) (v : Byte)
  /-- MVI M,d8: 36, d8 (40 R115). -/
  | mviM (v : Byte)
  /-- LXI rp,d16: `00 PP 0001`, low, high (40 R116). -/
  | lxi (p : Pair) (w : Word)
  /-- LDA a16: 3A, low, high (40 R117). -/
  | lda (a : Word)
  /-- STA a16: 32, low, high (40 R118). -/
  | sta (a : Word)
  /-- LDAX rp: `000 P 1010` (40 R119). -/
  | ldax (p : Pair)
  /-- STAX rp: `000 P 0010` (40 R120). -/
  | stax (p : Pair)
  /-- LHLD a16: 2A, low, high (40 R121). -/
  | lhld (a : Word)
  /-- SHLD a16: 22, low, high (40 R122). -/
  | shld (a : Word)
  /-- XCHG: EB (40 R123). -/
  | xchg
  /-- ADD Rs: `10 000 SSS` (41 R142). -/
  | addR (rs : Reg)
  /-- ADD M: `10 000 110` (41 R143). -/
  | addM
  /-- ADC Rs: `10 001 SSS` (41 R144). -/
  | adcR (rs : Reg)
  /-- ADC M: `10 001 110` (41 R145). -/
  | adcM
  /-- SUB Rs: `10 010 SSS` (41 R149). -/
  | subR (rs : Reg)
  /-- SUB M: `10 010 110` (41 R150). -/
  | subM
  /-- SBB Rs: `10 011 SSS` (41 R151). -/
  | sbbR (rs : Reg)
  /-- SBB M: `10 011 110` (41 R152). -/
  | sbbM
  /-- ANA Rs: `10 100 SSS` (42 R171). -/
  | anaR (rs : Reg)
  /-- ANA M: `10 100 110` (42 R172). -/
  | anaM
  /-- XRA Rs: `10 101 SSS` (42 R174). -/
  | xraR (rs : Reg)
  /-- XRA M: `10 101 110` (42 R175). -/
  | xraM
  /-- ORA Rs: `10 110 SSS` (42 R177). -/
  | oraR (rs : Reg)
  /-- ORA M: `10 110 110` (42 R178). -/
  | oraM
  /-- CMP Rs: `10 111 SSS` (42 R180). -/
  | cmpR (rs : Reg)
  /-- CMP M: `10 111 110` (42 R181). -/
  | cmpM
  /-- ADI d8: C6, d8 (41 R146). -/
  | adi (v : Byte)
  /-- ACI d8: CE, d8 (41 R147). -/
  | aci (v : Byte)
  /-- SUI d8: D6, d8 (41 R153). -/
  | sui (v : Byte)
  /-- SBI d8: DE, d8 (41 R154). -/
  | sbi (v : Byte)
  /-- ANI d8: E6, d8 (42 R173). -/
  | ani (v : Byte)
  /-- XRI d8: EE, d8 (42 R176). -/
  | xri (v : Byte)
  /-- ORI d8: F6, d8 (42 R179). -/
  | ori (v : Byte)
  /-- CPI d8: FE, d8 (42 R182). -/
  | cpi (v : Byte)
  /-- INR Rd: `00 DDD 100` (41 R155). -/
  | inrR (rd : Reg)
  /-- INR M: 34 (41 R156). -/
  | inrM
  /-- DCR Rd: `00 DDD 101` (41 R157). -/
  | dcrR (rd : Reg)
  /-- DCR M: 35 (41 R158). -/
  | dcrM
  /-- INX rp: `00 PP 0011` (41 R159). -/
  | inx (p : Pair)
  /-- DCX rp: `00 PP 1011` (41 R160). -/
  | dcx (p : Pair)
  /-- DAD rp: `00 PP 1001` (41 R161). -/
  | dad (p : Pair)
  /-- DAA: 27 (41 R162). -/
  | daa
  /-- RLC: 07 (42 R188). -/
  | rlc
  /-- RRC: 0F (42 R189). -/
  | rrc
  /-- RAL: 17 (42 R190). -/
  | ral
  /-- RAR: 1F (42 R191). -/
  | rar
  /-- CMA: 2F (42 R192). -/
  | cma
  /-- CMC: 3F (42 R193). -/
  | cmc
  /-- STC: 37 (42 R194). -/
  | stc
  /-- JMP a16: C3, low, high (43 R202). -/
  | jmp (a : Word)
  /-- JNZ a16: C2, low, high (43 R203). -/
  | jnz (a : Word)
  /-- JZ a16: CA, low, high (43 R204). -/
  | jz (a : Word)
  /-- JNC a16: D2, low, high (43 R205). -/
  | jnc (a : Word)
  /-- JC a16: DA, low, high (43 R206). -/
  | jc (a : Word)
  /-- JPO a16: E2, low, high (43 R207). -/
  | jpo (a : Word)
  /-- JPE a16: EA, low, high (43 R208). -/
  | jpe (a : Word)
  /-- JP a16: F2, low, high (43 R209). -/
  | jp (a : Word)
  /-- JM a16: FA, low, high (43 R210). -/
  | jm (a : Word)
  /-- CALL a16: CD, low, high (43 R211). -/
  | call (a : Word)
  /-- CNZ a16: C4, low, high (43 R212). -/
  | cnz (a : Word)
  /-- CZ a16: CC, low, high (43 R213). -/
  | cz (a : Word)
  /-- CNC a16: D4, low, high (43 R214). -/
  | cnc (a : Word)
  /-- CC a16: DC, low, high (43 R215). -/
  | cc (a : Word)
  /-- CPO a16: E4, low, high (43 R216). -/
  | cpo (a : Word)
  /-- CPE a16: EC, low, high (43 R217). -/
  | cpe (a : Word)
  /-- CP a16: F4, low, high (43 R218). -/
  | cp (a : Word)
  /-- CM a16: FC, low, high (43 R219). -/
  | cm (a : Word)
  /-- RET: C9 (43 R220). -/
  | ret
  /-- RNZ: C0 (43 R221). -/
  | rnz
  /-- RZ: C8 (43 R222). -/
  | rz
  /-- RNC: D0 (43 R223). -/
  | rnc
  /-- RC: D8 (43 R224). -/
  | rc
  /-- RPO: E0 (43 R225). -/
  | rpo
  /-- RPE: E8 (43 R226). -/
  | rpe
  /-- RP: F0 (43 R227). -/
  | rp
  /-- RM: F8 (43 R228). -/
  | rm
  /-- RST n: `11 NNN 111` (43 R229). -/
  | rst (n : Nat)
  /-- PCHL: E9 (43 R230). -/
  | pchl
  /-- PUSH rp: `11 PP 0101`, `PP != 11` (44 R241). -/
  | pushRp (p : Pair)
  /-- PUSH PSW: F5 (44 R242). -/
  | pushPsw
  /-- POP rp: `11 PP 0001`, `PP != 11` (44 R243). -/
  | popRp (p : Pair)
  /-- POP PSW: F1 (44 R244). -/
  | popPsw
  /-- XTHL: E3 (44 R245). -/
  | xthl
  /-- SPHL: F9 (44 R246). -/
  | sphl
  /-- IN p8: DB, p8 (44 R250). -/
  | inPort (port : Byte)
  /-- OUT p8: D3, p8 (44 R251). -/
  | outPort (port : Byte)
  /-- EI: FB (44 R255). -/
  | ei
  /-- DI: F3 (44 R256). -/
  | di
  /-- NOP: 00 (44 R260). -/
  | nop
  /-- HLT: 76 (44 R262). -/
  | hlt
  /-- RIM: 20 (44 R263). -/
  | rim
  /-- SIM: 30 (44 R264). -/
  | sim
  /-- The first byte 08, to which the spec assigns no instruction (30 R96). -/
  | undefined08
  /-- The first byte 10, to which the spec assigns no instruction (30 R96). -/
  | undefined10
  /-- The first byte 18, to which the spec assigns no instruction (30 R96). -/
  | undefined18
  /-- The first byte 28, to which the spec assigns no instruction (30 R96). -/
  | undefined28
  /-- The first byte 38, to which the spec assigns no instruction (30 R96). -/
  | undefined38
  /-- The first byte CB, to which the spec assigns no instruction (30 R96). -/
  | undefinedCB
  /-- The first byte D9, to which the spec assigns no instruction (30 R96). -/
  | undefinedD9
  /-- The first byte DD, to which the spec assigns no instruction (30 R96). -/
  | undefinedDD
  /-- The first byte ED, to which the spec assigns no instruction (30 R96). -/
  | undefinedED
  /-- The first byte FD, to which the spec assigns no instruction (30 R96). -/
  | undefinedFD
  deriving DecidableEq, Repr

end Sys2Proof
end

