-- ==== Sys2Proof/WellFormed.lean ====
section
/-! DEFINITION. Which terms of `Instr` are instructions of the 8085: the limits on operands that the operand shapes of
30_encoding.md R102 set and the types of Syntax.lean do not. -/

namespace Sys2Proof

/-- LDAX and STAX name BC or DE only (10_state.md R23, 30 R84). -/
def Pair.indexed : Pair → Bool
  | .bc | .de => true
  | .hl | .sp => false

/-- PUSH and POP of a pair name BC, DE or HL; field 11 is PSW there (10 R23, 30 R84). -/
def Pair.stacked : Pair → Bool
  | .bc | .de | .hl => true
  | .sp => false

/-- The operand limits of 30 R102, as a check. -/
def Instr.wellFormed : Instr → Bool
  | .ldax p | .stax p => p.indexed
  | .pushRp p | .popRp p => p.stacked
  | .rst n => n < 8
  | .movRR _ _ | .movRM _ | .movMR _ | .mviR _ _ | .mviM _ | .lxi _ _ | .lda _ | .sta _ | .lhld _
  | .shld _ | .xchg | .addR _ | .addM | .adcR _ | .adcM | .subR _ | .subM | .sbbR _ | .sbbM | .anaR _
  | .anaM | .xraR _ | .xraM | .oraR _ | .oraM | .cmpR _ | .cmpM | .adi _ | .aci _ | .sui _ | .sbi _
  | .ani _ | .xri _ | .ori _ | .cpi _ | .inrR _ | .inrM | .dcrR _ | .dcrM | .inx _ | .dcx _ | .dad _
  | .daa | .rlc | .rrc | .ral | .rar | .cma | .cmc | .stc | .jmp _ | .jnz _ | .jz _ | .jnc _ | .jc _
  | .jpo _ | .jpe _ | .jp _ | .jm _ | .call _ | .cnz _ | .cz _ | .cnc _ | .cc _ | .cpo _ | .cpe _
  | .cp _ | .cm _ | .ret | .rnz | .rz | .rnc | .rc | .rpo | .rpe | .rp | .rm | .pchl | .pushPsw
  | .popPsw | .xthl | .sphl | .inPort _ | .outPort _ | .ei | .di | .nop | .hlt | .rim | .sim
  | .undefined08 | .undefined10 | .undefined18 | .undefined28 | .undefined38 | .undefinedCB
  | .undefinedD9 | .undefinedDD | .undefinedED | .undefinedFD =>
    true

/-- An instruction of the 8085. -/
abbrev Instr.WellFormed (i : Instr) : Prop := i.wellFormed = true

end Sys2Proof
end

