-- ==== Sys2Proof/Decode.lean ====
section
/-! DEFINITION. The decoder and the encoder of the 8085 (30_encoding.md). The first byte alone decides the instruction and
its length (R80); the decoder follows the groups R90 to R93 of the opcode map, with the fields op[7:6], op[5:3], op[2:0] of
R81, and is total: each of the 256 first bytes is one instruction or one of the ten unassigned codes of R96, which have
constructors of their own (R95). The encoder is written from the formats of R82 and the code tables of R83 to R89. -/

namespace Sys2Proof

/-- What a first byte asks for: nothing more, one operand byte, or two operand bytes that make a word (R80). -/
inductive Form
  | one (i : Instr)
  | two (f : Byte → Instr)
  | three (f : Word → Instr)

/-- The length in bytes of an instruction of this form (R80). -/
def Form.length : Form → Nat
  | .one _ => 1
  | .two _ => 2
  | .three _ => 3

/-- The instruction of a form, given the second and third bytes; a 16-bit operand is `byte3:byte2` (R88). -/
def Form.instr : Form → Byte → Byte → Instr
  | .one i, _, _ => i
  | .two f, b2, _ => f b2
  | .three f, b2, b3 => f (Machine.join b3 b2)

/-- A register field: the register of its code, or none for code 110, which is `M` (R83). -/
def regOfCode : Fin 8 → Option Reg
  | 0 => some .b
  | 1 => some .c
  | 2 => some .d
  | 3 => some .e
  | 4 => some .h
  | 5 => some .l
  | 6 => none
  | 7 => some .a

/-- The pair of op[5:4], read from op[5:3] (R84). -/
def pairOfCode : Fin 8 → Pair
  | 0 | 1 => .bc
  | 2 | 3 => .de
  | 4 | 5 => .hl
  | 6 | 7 => .sp

/-- An instruction with a register form and an `M` form, by its register field (R95). -/
def regOrM (y : Fin 8) (onReg : Reg → Form) (onM : Form) : Form :=
  match regOfCode y with
  | some r => onReg r
  | none => onM

/-- Group 00, op[2:0] = 000 (R90). -/
def form00z0 : Fin 8 → Form
  | 0 => .one .nop
  | 1 => .one .undefined08
  | 2 => .one .undefined10
  | 3 => .one .undefined18
  | 4 => .one .rim
  | 5 => .one .undefined28
  | 6 => .one .sim
  | 7 => .one .undefined38

/-- Group 00, op[2:0] = 010 (R90). -/
def form00z2 : Fin 8 → Form
  | 0 => .one (.stax .bc)
  | 1 => .one (.ldax .bc)
  | 2 => .one (.stax .de)
  | 3 => .one (.ldax .de)
  | 4 => .three .shld
  | 5 => .three .lhld
  | 6 => .three .sta
  | 7 => .three .lda

/-- Group 00, op[2:0] = 111 (R90). -/
def form00z7 : Fin 8 → Form
  | 0 => .one .rlc
  | 1 => .one .rrc
  | 2 => .one .ral
  | 3 => .one .rar
  | 4 => .one .daa
  | 5 => .one .cma
  | 6 => .one .stc
  | 7 => .one .cmc

/-- Group 00 (R90). -/
def form00 (y z : Fin 8) : Form :=
  match z with
  | 0 => form00z0 y
  | 1 => if y.val % 2 = 0 then .three (.lxi (pairOfCode y)) else .one (.dad (pairOfCode y))
  | 2 => form00z2 y
  | 3 => if y.val % 2 = 0 then .one (.inx (pairOfCode y)) else .one (.dcx (pairOfCode y))
  | 4 => regOrM y (fun r => .one (.inrR r)) (.one .inrM)
  | 5 => regOrM y (fun r => .one (.dcrR r)) (.one .dcrM)
  | 6 => regOrM y (fun r => .two (.mviR r)) (.two .mviM)
  | 7 => form00z7 y

/-- Group 01: MOV, and HLT where both fields are 110 (R91). -/
def form01 (y z : Fin 8) : Form :=
  match regOfCode y, regOfCode z with
  | some rd, some rs => .one (.movRR rd rs)
  | some rd, none => .one (.movRM rd)
  | none, some rs => .one (.movMR rs)
  | none, none => .one .hlt

/-- Group 10: the arithmetic and logic group by operation field and operand (R85, R92). -/
def form10 (y z : Fin 8) : Form :=
  match y with
  | 0 => regOrM z (fun r => .one (.addR r)) (.one .addM)
  | 1 => regOrM z (fun r => .one (.adcR r)) (.one .adcM)
  | 2 => regOrM z (fun r => .one (.subR r)) (.one .subM)
  | 3 => regOrM z (fun r => .one (.sbbR r)) (.one .sbbM)
  | 4 => regOrM z (fun r => .one (.anaR r)) (.one .anaM)
  | 5 => regOrM z (fun r => .one (.xraR r)) (.one .xraM)
  | 6 => regOrM z (fun r => .one (.oraR r)) (.one .oraM)
  | 7 => regOrM z (fun r => .one (.cmpR r)) (.one .cmpM)

/-- Group 11, op[2:0] = 000: the conditional returns (R93). -/
def form11z0 : Fin 8 → Form
  | 0 => .one .rnz
  | 1 => .one .rz
  | 2 => .one .rnc
  | 3 => .one .rc
  | 4 => .one .rpo
  | 5 => .one .rpe
  | 6 => .one .rp
  | 7 => .one .rm

/-- Group 11, op[2:0] = 001 (R93). -/
def form11z1 : Fin 8 → Form
  | 0 => .one (.popRp .bc)
  | 1 => .one .ret
  | 2 => .one (.popRp .de)
  | 3 => .one .undefinedD9
  | 4 => .one (.popRp .hl)
  | 5 => .one .pchl
  | 6 => .one .popPsw
  | 7 => .one .sphl

/-- Group 11, op[2:0] = 010: the conditional jumps (R93). -/
def form11z2 : Fin 8 → Form
  | 0 => .three .jnz
  | 1 => .three .jz
  | 2 => .three .jnc
  | 3 => .three .jc
  | 4 => .three .jpo
  | 5 => .three .jpe
  | 6 => .three .jp
  | 7 => .three .jm

/-- Group 11, op[2:0] = 011 (R93). -/
def form11z3 : Fin 8 → Form
  | 0 => .three .jmp
  | 1 => .one .undefinedCB
  | 2 => .two .outPort
  | 3 => .two .inPort
  | 4 => .one .xthl
  | 5 => .one .xchg
  | 6 => .one .di
  | 7 => .one .ei

/-- Group 11, op[2:0] = 100: the conditional calls (R93). -/
def form11z4 : Fin 8 → Form
  | 0 => .three .cnz
  | 1 => .three .cz
  | 2 => .three .cnc
  | 3 => .three .cc
  | 4 => .three .cpo
  | 5 => .three .cpe
  | 6 => .three .cp
  | 7 => .three .cm

/-- Group 11, op[2:0] = 101 (R93). -/
def form11z5 : Fin 8 → Form
  | 0 => .one (.pushRp .bc)
  | 1 => .three .call
  | 2 => .one (.pushRp .de)
  | 3 => .one .undefinedDD
  | 4 => .one (.pushRp .hl)
  | 5 => .one .undefinedED
  | 6 => .one .pushPsw
  | 7 => .one .undefinedFD

/-- Group 11, op[2:0] = 110: the immediate arithmetic and logic group (R85, R93). -/
def form11z6 : Fin 8 → Form
  | 0 => .two .adi
  | 1 => .two .aci
  | 2 => .two .sui
  | 3 => .two .sbi
  | 4 => .two .ani
  | 5 => .two .xri
  | 6 => .two .ori
  | 7 => .two .cpi

/-- Group 11 (R93). -/
def form11 (y z : Fin 8) : Form :=
  match z with
  | 0 => form11z0 y
  | 1 => form11z1 y
  | 2 => form11z2 y
  | 3 => form11z3 y
  | 4 => form11z4 y
  | 5 => form11z5 y
  | 6 => form11z6 y
  | 7 => .one (.rst y.val)

/-- The form of a first byte: group op[7:6], fields op[5:3] and op[2:0] (R81, R95). -/
def formOf (op : Byte) : Form :=
  let y := Fin.ofNat 8 (op.toNat / 8)
  let z := Fin.ofNat 8 op.toNat
  match Fin.ofNat 4 (op.toNat / 64) with
  | 0 => form00 y z
  | 1 => form01 y z
  | 2 => form10 y z
  | 3 => form11 y z

/-- The instruction that starts with the first byte `op`, given the two bytes after it (R95). Total: an unassigned first
byte is an instruction of its own name. -/
def instrOf (op b2 b3 : Byte) : Instr := (formOf op).instr b2 b3

/-- What decoding a list of bytes gives: an instruction and the bytes after it, or a rejection by name. -/
inductive Decoded
  | instr (i : Instr) (rest : List Byte)
  /-- There is no first byte. -/
  | noBytes
  /-- The operand bytes of the first byte `op` are not all there. -/
  | truncated (op : Byte)
  deriving DecidableEq, Repr

/-- Decode the instruction at the head of a list of bytes, lowest address first (R53, R80). -/
def decode : List Byte → Decoded
  | [] => .noBytes
  | op :: rest =>
    match formOf op, rest with
    | .one i, _ => .instr i rest
    | .two f, b2 :: rest' => .instr (f b2) rest'
    | .three f, b2 :: b3 :: rest' => .instr (f (Machine.join b3 b2)) rest'
    | .two _, [] => .truncated op
    | .three _, [] => .truncated op
    | .three _, [_] => .truncated op

/-- The length of an instruction from its first byte (R98). -/
def lengthOf (op : Byte) : Nat := (formOf op).length

/-- The 3-bit code of a register (10_state.md R21, 30 R83). -/
def Reg.code : Reg → Nat
  | .b => 0
  | .c => 1
  | .d => 2
  | .e => 3
  | .h => 4
  | .l => 5
  | .a => 7

/-- The 2-bit code of a pair (10 R23, 30 R84). -/
def Pair.code : Pair → Nat
  | .bc => 0
  | .de => 1
  | .hl => 2
  | .sp => 3

/-- The first byte with the octal fields op[7:6], op[5:3], op[2:0] (R81). -/
def opByte (x y z : Nat) : Byte := BitVec.ofNat 8 (64 * x + 8 * y + z)

/-- The operand bytes of a 16-bit operand, the low-order byte first (R53, R88). -/
def operandBytes (w : Word) : List Byte := [Machine.low w, Machine.high w]

/-- The bytes of an instruction, lowest address first (R82). -/
def encode : Instr → List Byte
  | .movRR rd rs => [opByte 1 rd.code rs.code]
  | .movRM rd => [opByte 1 rd.code 6]
  | .movMR rs => [opByte 1 6 rs.code]
  | .mviR rd v => [opByte 0 rd.code 6, v]
  | .mviM v => [0x36#8, v]
  | .lxi p w => opByte 0 (2 * p.code) 1 :: operandBytes w
  | .lda a => 0x3A#8 :: operandBytes a
  | .sta a => 0x32#8 :: operandBytes a
  | .ldax p => [opByte 0 (2 * p.code + 1) 2]
  | .stax p => [opByte 0 (2 * p.code) 2]
  | .lhld a => 0x2A#8 :: operandBytes a
  | .shld a => 0x22#8 :: operandBytes a
  | .xchg => [0xEB#8]
  | .addR rs => [opByte 2 0 rs.code]
  | .addM => [0x86#8]
  | .adcR rs => [opByte 2 1 rs.code]
  | .adcM => [0x8E#8]
  | .subR rs => [opByte 2 2 rs.code]
  | .subM => [0x96#8]
  | .sbbR rs => [opByte 2 3 rs.code]
  | .sbbM => [0x9E#8]
  | .anaR rs => [opByte 2 4 rs.code]
  | .anaM => [0xA6#8]
  | .xraR rs => [opByte 2 5 rs.code]
  | .xraM => [0xAE#8]
  | .oraR rs => [opByte 2 6 rs.code]
  | .oraM => [0xB6#8]
  | .cmpR rs => [opByte 2 7 rs.code]
  | .cmpM => [0xBE#8]
  | .adi v => [0xC6#8, v]
  | .aci v => [0xCE#8, v]
  | .sui v => [0xD6#8, v]
  | .sbi v => [0xDE#8, v]
  | .ani v => [0xE6#8, v]
  | .xri v => [0xEE#8, v]
  | .ori v => [0xF6#8, v]
  | .cpi v => [0xFE#8, v]
  | .inrR rd => [opByte 0 rd.code 4]
  | .inrM => [0x34#8]
  | .dcrR rd => [opByte 0 rd.code 5]
  | .dcrM => [0x35#8]
  | .inx p => [opByte 0 (2 * p.code) 3]
  | .dcx p => [opByte 0 (2 * p.code + 1) 3]
  | .dad p => [opByte 0 (2 * p.code + 1) 1]
  | .daa => [0x27#8]
  | .rlc => [0x07#8]
  | .rrc => [0x0F#8]
  | .ral => [0x17#8]
  | .rar => [0x1F#8]
  | .cma => [0x2F#8]
  | .cmc => [0x3F#8]
  | .stc => [0x37#8]
  | .jmp a => 0xC3#8 :: operandBytes a
  | .jnz a => 0xC2#8 :: operandBytes a
  | .jz a => 0xCA#8 :: operandBytes a
  | .jnc a => 0xD2#8 :: operandBytes a
  | .jc a => 0xDA#8 :: operandBytes a
  | .jpo a => 0xE2#8 :: operandBytes a
  | .jpe a => 0xEA#8 :: operandBytes a
  | .jp a => 0xF2#8 :: operandBytes a
  | .jm a => 0xFA#8 :: operandBytes a
  | .call a => 0xCD#8 :: operandBytes a
  | .cnz a => 0xC4#8 :: operandBytes a
  | .cz a => 0xCC#8 :: operandBytes a
  | .cnc a => 0xD4#8 :: operandBytes a
  | .cc a => 0xDC#8 :: operandBytes a
  | .cpo a => 0xE4#8 :: operandBytes a
  | .cpe a => 0xEC#8 :: operandBytes a
  | .cp a => 0xF4#8 :: operandBytes a
  | .cm a => 0xFC#8 :: operandBytes a
  | .ret => [0xC9#8]
  | .rnz => [0xC0#8]
  | .rz => [0xC8#8]
  | .rnc => [0xD0#8]
  | .rc => [0xD8#8]
  | .rpo => [0xE0#8]
  | .rpe => [0xE8#8]
  | .rp => [0xF0#8]
  | .rm => [0xF8#8]
  | .rst n => [opByte 3 n 7]
  | .pchl => [0xE9#8]
  | .pushRp p => [opByte 3 (2 * p.code) 5]
  | .pushPsw => [0xF5#8]
  | .popRp p => [opByte 3 (2 * p.code) 1]
  | .popPsw => [0xF1#8]
  | .xthl => [0xE3#8]
  | .sphl => [0xF9#8]
  | .inPort port => [0xDB#8, port]
  | .outPort port => [0xD3#8, port]
  | .ei => [0xFB#8]
  | .di => [0xF3#8]
  | .nop => [0x00#8]
  | .hlt => [0x76#8]
  | .rim => [0x20#8]
  | .sim => [0x30#8]
  | .undefined08 => [0x08#8]
  | .undefined10 => [0x10#8]
  | .undefined18 => [0x18#8]
  | .undefined28 => [0x28#8]
  | .undefined38 => [0x38#8]
  | .undefinedCB => [0xCB#8]
  | .undefinedD9 => [0xD9#8]
  | .undefinedDD => [0xDD#8]
  | .undefinedED => [0xED#8]
  | .undefinedFD => [0xFD#8]

/-- The three bytes that an opcode-table word of `nbits` bits stands for: bit 0 is the least significant bit of the first
byte, and every bit above `nbits` is 0. -/
def tableBytes (nbits w : Nat) : List Byte :=
  let v := w % 2 ^ nbits
  [BitVec.ofNat 8 v, BitVec.ofNat 8 (v / 256), BitVec.ofNat 8 (v / 65536)]

/-- The instruction the decoder reads from an instruction whose bits are `w`, numbered as spec/opcode_table.json numbers
them. -/
def decodeTableWord (nbits w : Nat) : Option Instr :=
  match decode (tableBytes nbits w) with
  | .instr i _ => some i
  | .noBytes => none
  | .truncated _ => none

end Sys2Proof
end

