-- ==== Sys2Proof/Config.lean ====
section
/-! DEFINITION. The open parameters of the 8085, which 00_scope.md R6 says a model takes as arguments, and the free values:
the constants without a body that stand for what the spec leaves to any value. The parameters are plain data that State
carries (`State.params`) and no step changes, so that a statement about every state holds for every setting of them. -/

namespace Sys2Proof.Config

/-- The five interrupt sources of 60_exceptions.md R272. -/
inductive IntSource
  | trap | rst75 | rst65 | rst55 | external
  deriving DecidableEq, Repr

/-- `EI_DELAY` (60 R285): whether EI sets the hidden bit `EI_shadow`. -/
inductive EiDelay
  /-- No `EI_shadow`: a maskable interrupt can be taken at the boundary right after EI. -/
  | none
  /-- EI sets `EI_shadow`. -/
  | oneInstruction
  /-- Both behaviours are allowed: each EI draws a free bit. -/
  | either
  deriving DecidableEq, Repr

/-- The eight named bits of the byte RIM loads (10_state.md R45). -/
inductive RimBit
  | sid | i75 | i65 | i55 | ie | m75 | m65 | m55
  deriving DecidableEq, Repr

/-- `RIM_LAYOUT` (00 R6, 10 R45): which named bit stands at each position of the byte RIM loads. -/
structure RimLayout where
  d7 : RimBit
  d6 : RimBit
  d5 : RimBit
  d4 : RimBit
  d3 : RimBit
  d2 : RimBit
  d1 : RimBit
  d0 : RimBit
  deriving DecidableEq, Repr

/-- The layout of 10 R45, the spec's default. -/
def RimLayout.spec : RimLayout :=
  { d7 := .sid, d6 := .i75, d5 := .i65, d4 := .i55, d3 := .ie, d2 := .m75, d1 := .m65, d0 := .m55 }

/-- The eight positions of a layout, D7 first. -/
def RimLayout.toList (r : RimLayout) : List RimBit := [r.d7, r.d6, r.d5, r.d4, r.d3, r.d2, r.d1, r.d0]

/-- What an address holds on the platform (`MemRegion`, 00 R6, 20_memory.md R64). -/
inductive RegionKind
  /-- Read-write memory. -/
  | ram
  /-- Read-only memory: a write is ignored (20 R64, 93 U13). -/
  | rom
  /-- No memory: nothing there, or a device of the platform (20 R59, R64). A read returns an arbitrary byte, a write is
  ignored (93 U13). -/
  | absent
  deriving DecidableEq, Repr

/-- One range of the platform's memory map: the addresses `base` to `base + size - 1`. -/
structure Region where
  base : Nat
  size : Nat
  kind : RegionKind
  deriving DecidableEq, Repr

/-- The open parameters of 00 R6. (`UNDEFINED_OPCODE_BEHAVIOUR` has the one value `refuse`, which the meanings of the ten
undefined first bytes follow; `IOPort` is the environment's and stands in `State.inputs`.) -/
structure Params where
  /-- `AC_SUB_ZERO_NIBBLE`: AC after a subtraction or compare with (operand[3:0] + borrow-in) = 0 (41 R148, D2). -/
  acSubZeroNibble : Bool
  /-- `FLAG_BYTE_UNUSED_BITS`: bits D5, D3, D1 (bits 2, 1, 0 here) of the byte PUSH PSW writes; `none` is "any", a free
  draw at each PUSH PSW (10 R30, D3). -/
  flagUnused : Option (BitVec 3)
  /-- `EI_DELAY` (60 R285, D14). -/
  eiDelay : EiDelay
  /-- `RIM_LAYOUT` (10 R45, D8). -/
  rimLayout : RimLayout
  /-- `INTERRUPT_PRIORITY`, the first taken first (60 R277, D12). -/
  priority : List IntSource
  /-- `RESET_PC` (70_reset_and_hazards.md R310, D20). -/
  resetPc : Word
  /-- `MemRegion`: an address in no range is RAM; of two ranges that hold an address the first counts (20 R64, D5). -/
  regions : List Region
  deriving DecidableEq, Repr

/-- The defaults of 00 R6. -/
def Params.spec : Params :=
  { acSubZeroNibble := false
    flagUnused := none
    eiDelay := .either
    rimLayout := .spec
    priority := [.trap, .rst75, .rst65, .rst55, .external]
    resetPc := 0x0000#16
    regions := [] }

/-- The parameters have the form 00 R6 gives them: the layout assigns each of the eight bits to one position, and the
priority is an order on the five sources. -/
abbrev Params.wf (p : Params) : Prop :=
  p.rimLayout.toList.Nodup ∧ p.priority.Nodup ∧ p.priority.length = 5

/-- FREE VALUE: bits D5, D3, D1 of the byte the PUSH PSW of draw `n` writes (10 R30, 93 U2). -/
opaque flagByteUnused (n : Nat) : BitVec 3

/-- FREE VALUE: whether the EI of draw `n` delays acceptance by one instruction, under `EiDelay.either` (60 R285, 93 U10). -/
opaque eiDelays (n : Nat) : Bool

/-- FREE VALUE: the byte input port `port` presents to the IN of draw `n`, where the environment's answer lists none
(20 R60, 93 U14). -/
opaque portByte (port : Byte) (n : Nat) : Byte

/-- FREE VALUE: the byte a read of the absent address `a` returns during draw `n` (20 R64, 93 U13). -/
opaque absentByte (a : Word) (n : Nat) : Byte

/-- FREE VALUE: the byte at address `a` that nothing has written (10 R41, 93 U3). -/
opaque powerUpByte (a : Word) : Byte

end Sys2Proof.Config
end

