-- ==== Sys2Proof/Machine/State.lean ====
section
/-! DEFINITION. The state of the 8085 as plain data (10_state.md), the reasons a step can stop, and the state after reset
(10 R40, 70_reset_and_hazards.md R310). -/

namespace Sys2Proof.Machine

/-- The seven general registers (10 R20). -/
structure Regs where
  a : Byte
  b : Byte
  c : Byte
  d : Byte
  e : Byte
  h : Byte
  l : Byte
  deriving DecidableEq, Repr

/-- The five flags (10 R27); `true` is set, 1. -/
structure Flags where
  s : Bool
  z : Bool
  ac : Bool
  p : Bool
  cy : Bool
  deriving DecidableEq, Repr

/-- The control and status flip-flops (10 R32 to R35, R38, R42). -/
structure Control where
  /-- Interrupt Enable flip-flop (10 R32). -/
  ie : Bool
  /-- Mask of RST 7.5, 1 = masked (10 R33). -/
  m75 : Bool
  /-- Mask of RST 6.5 (10 R33). -/
  m65 : Bool
  /-- Mask of RST 5.5 (10 R33). -/
  m55 : Bool
  /-- The RST 7.5 flip-flop: a latched RST 7.5 request (10 R34). -/
  ff75 : Bool
  /-- The serial output data latch (10 R35). -/
  sod : Bool
  /-- The Halt state (10 R38). -/
  halted : Bool
  /-- `EI_shadow` (10 R42, 60 R285). -/
  eiShadow : Bool
  deriving DecidableEq, Repr

/-- Memory: the bytes written since power-up or placed from outside, as pairs of address and byte (20 R50, R51). Its one
canonical form is `Memory.wf` (Machine/Ops.lean): addresses strictly rising and below 65536. An address it does not list
holds no written byte; `State.readByte` says what reading it gives. -/
abbrev Memory := List Host.Cell

/-- A reset asserted while an instruction or an interrupt entry is under way, and what it leaves of it (70 R310, R311: "an
instruction in progress when reset occurs is abandoned", with no guarantee about its partially performed memory writes). It
comes at any point after the opcode fetch; one during the fetch is a reset at the boundary. What the spec leaves open is the
environment's draw (entry 26). -/
structure Cut where
  /-- How many of the accesses of 20 R57 after the opcode fetch have been completed. -/
  done : Nat
  /-- What the write under way, if the next access is one, has left at its address; `none` where it has not begun. -/
  torn : Option Byte
  /-- What is left in those general registers that the instruction writes. -/
  regs : Regs
  /-- What is left in those flags that the instruction writes. -/
  flags : Flags
  /-- What is left in SP, if the instruction or entry writes it. -/
  sp : Word
  deriving DecidableEq, Repr

/-- What the environment presents during one step: its answer at the boundary (10 R37, 60 R274, 70 R310), and what its
lines and ports present while the instruction of that step, if one runs, executes (10 R36, 20 R60, 44 R263). -/
structure Inputs where
  /-- Reset is asserted at the boundary (70 R310). -/
  reset : Bool
  /-- Reset is asserted after the boundary, inside the instruction or the interrupt entry of this step (70 R310, R311). -/
  cut : Option Cut
  /-- `TRAP_req` at the boundary. -/
  trapReq : Bool
  /-- `I75_event` at the boundary: sets `FF75`. -/
  i75Event : Bool
  /-- `I65_req` at the boundary. -/
  i65Req : Bool
  /-- `I55_req` at the boundary. -/
  i55Req : Bool
  /-- `EXT_req` with its byte `EXT_op`; `none` is no request. -/
  extOp : Option Byte
  /-- `I75_event` after the boundary, before the instruction takes effect (60 R274: "at any time"). -/
  run75Event : Bool
  /-- `I65_req` at the time RIM executes. -/
  run65 : Bool
  /-- `I55_req` at the time RIM executes. -/
  run55 : Bool
  /-- `SID` at the time RIM executes. -/
  sid : Bool
  /-- The bytes that input ports present, by port; the first pair of a port counts, and a port not listed presents a free
  value (20 R60). -/
  ports : List (Byte × Byte)
  deriving DecidableEq, Repr

/-- An environment that asks for nothing and whose ports present free values (entries 5, 7). Its SID is 0: DESIGN CHOICE,
unsafe (entry 37), since the spec lets SID be any value that the environment supplies (10 R36, 93 U14). -/
def Inputs.idle : Inputs :=
  { reset := false, cut := none, trapReq := false, i75Event := false, i65Req := false, i55Req := false, extOp := none,
    run75Event := false, run65 := false, run55 := false, sid := false, ports := [] }

/-- The state of the machine. INVENTORY.md lists every field with the rule that names it. -/
structure State where
  regs : Regs
  flags : Flags
  /-- Stack pointer (10 R24). -/
  sp : Word
  /-- Program counter (10 R25). -/
  pc : Word
  ctl : Control
  mem : Memory
  /-- The environment's answer for the step under way. -/
  inputs : Inputs
  /-- The environment's answers at the boundaries to come, the next one first. -/
  script : List Inputs
  /-- The events (port, value) of OUT, oldest first (20 R61). -/
  outTrace : List (Byte × Byte)
  /-- The values SIM latched into SOD, oldest first (10 R35, 70 R322). -/
  sodTrace : List Bool
  /-- How many instructions have begun: the model's own counter, the argument of the free values. -/
  draws : Nat
  /-- The open parameters of 00 R6; no step changes them. -/
  params : Config.Params
  deriving DecidableEq, Repr

/-- There is no fault: no instruction of the set can fault (60_exceptions.md R270), and the model adds none. -/
inductive Fault
  deriving DecidableEq, Repr

/-- The ways a step has no transition. -/
inductive Refusal
  /-- Raised by an arm of `exec` for an instruction without a meaning; no arm does. Safe: the machine stops. -/
  | notModelled (mnemonic : String)
  /-- Raised by the ten first bytes without an instruction: `UNDEFINED_OPCODE_BEHAVIOUR = refuse` (30 R96). Safe: the
  machine stops where the spec gives no transition. -/
  | undefinedOpcode (op : Byte)
  /-- Raised by interrupt entry where external hardware supplies a byte that is no RST code (60 R279, D16). Safe: the
  machine stops where the spec gives no transition. -/
  | insertedNotRst (op : Byte)
  deriving DecidableEq, Repr

/-- The machine right after reset (10 R40, 70 R310), under the spec's default parameters. IE, PC, the masks, FF75, SOD,
halted and EI_shadow have the values the spec gives. A to L, SP and the flags, which the spec leaves unspecified, are zero:
DESIGN CHOICE, unsafe (entries 1, 2). Memory lists nothing (entry 3). The environment asks for nothing (entry 5) and
presents SID 0: DESIGN CHOICE, unsafe (entry 37). -/
def State.reset : State :=
  { regs := { a := 0x00#8, b := 0x00#8, c := 0x00#8, d := 0x00#8, e := 0x00#8, h := 0x00#8, l := 0x00#8 }
    flags := { s := false, z := false, ac := false, p := false, cy := false }
    sp := 0x0000#16
    pc := 0x0000#16
    ctl :=
      { ie := false, m75 := true, m65 := true, m55 := true, ff75 := false, sod := false, halted := false,
        eiShadow := false }
    mem := []
    inputs := .idle
    script := []
    outTrace := []
    sodTrace := []
    draws := 0
    params := .spec }

end Sys2Proof.Machine
end

