-- ==== Sys2Proof/Machine/Ops.lean ====
section
/-! DEFINITION. The named operations over State: one update per field, memory (20_memory.md R50, R51, R64), the stack
primitives (R71, R72), ports (R60, R61), the advance of PC (10_state.md R26), interrupt entry (60_exceptions.md R278 to R280)
with the return from it (R282), and the reset event (70_reset_and_hazards.md R310). -/

namespace Sys2Proof.Machine

/-! One update per field. -/

def State.withRegs (s : State) (r : Regs) : State := { s with regs := r }

def State.withFlags (s : State) (f : Flags) : State := { s with flags := f }

def State.withSp (s : State) (w : Word) : State := { s with sp := w }

def State.withPc (s : State) (w : Word) : State := { s with pc := w }

def State.withCtl (s : State) (c : Control) : State := { s with ctl := c }

def State.withMem (s : State) (m : Memory) : State := { s with mem := m }

def State.withInputs (s : State) (i : Inputs) : State := { s with inputs := i }

def State.withScript (s : State) (is : List Inputs) : State := { s with script := is }

def State.withOutTrace (s : State) (t : List (Byte × Byte)) : State := { s with outTrace := t }

def State.withSodTrace (s : State) (t : List Bool) : State := { s with sodTrace := t }

def State.withDraws (s : State) (n : Nat) : State := { s with draws := n }

def State.withParams (s : State) (p : Config.Params) : State := { s with params := p }

/-! Memory. -/

/-- The canonical form of a memory: addresses strictly rising, each below 65536 (10 R43). -/
abbrev Memory.wf (m : Memory) : Prop := m.Pairwise (fun x y => x.1 < y.1) ∧ ∀ c ∈ m, c.1 < 65536

/-- The byte written at an address, or none where nothing has been written. -/
def Memory.look : Memory → Nat → Option Byte
  | [], _ => none
  | (b, v) :: m, a => if a = b then some v else Memory.look m a

/-- The memory with the byte `v` at address `a`, in canonical form again. -/
def Memory.store : Memory → Nat → Byte → Memory
  | [], a, v => [(a, v)]
  | (b, w) :: m, a, v =>
    if a < b then (a, v) :: (b, w) :: m
    else if a = b then (a, v) :: m
    else (b, w) :: Memory.store m a v

/-- Whether a range of the platform's map holds an address. -/
def holds (r : Config.Region) (a : Word) : Bool := r.base ≤ a.toNat && a.toNat < r.base + r.size

/-- `MemRegion(addr)`: what the platform has at an address; RAM where its map says nothing (20 R64, D5). -/
def State.regionAt (s : State) (a : Word) : Config.RegionKind :=
  match s.params.regions.find? (fun r => holds r a) with
  | some r => r.kind
  | none => .ram

/-- `MemRead(addr, 1)` (20 R50): the byte last written, a free value where nothing has been written (10 R41), a free value
at an absent address (20 R64). -/
def State.readByte (s : State) (a : Word) : Byte :=
  match s.regionAt a with
  | .absent => Config.absentByte a s.draws
  | .ram | .rom => (Memory.look s.mem a.toNat).getD (Config.powerUpByte a)

/-- The memory after `MemWrite(addr, 1, v)`: changed in RAM; in ROM and at an absent address the write is ignored
(20 R51, R64). -/
def State.memAfter (s : State) (a : Word) (v : Byte) : Memory :=
  match s.regionAt a with
  | .ram => Memory.store s.mem a.toNat v
  | .rom | .absent => s.mem

/-- `MemWrite(addr, 1, v)` (20 R51). -/
def State.writeByte (s : State) (a : Word) (v : Byte) : State := s.withMem (s.memAfter a v)

/-- The 16-bit value at `a`: low-order byte at `a`, high-order byte at `a + 1` mod 65536 (20 R52, R56). -/
def State.readWord (s : State) (a : Word) : Word := join (s.readByte (a + 1)) (s.readByte a)

/-! Stack. -/

/-- `Push16(w)` (20 R71). -/
def State.push16 (s : State) (w : Word) : State :=
  ((s.writeByte (s.sp - 1) (high w)).writeByte (s.sp - 2) (low w)).withSp (s.sp - 2)

/-- The value `Pop16()` returns (20 R72). -/
def State.top16 (s : State) : Word := s.readWord s.sp

/-- The stack pointer step of `Pop16()` (20 R72). -/
def State.drop16 (s : State) : State := s.withSp (s.sp + 2)

/-! Program counter. -/

/-- `PC <- PC + n` mod 65536 (10 R26). -/
def State.advance (s : State) (n : Nat) : State := s.withPc (s.pc + BitVec.ofNat 16 n)

/-- The address of the next instruction in sequence, for an instruction of `n` bytes (10 R25). -/
def State.nextPc (s : State) (n : Nat) : Word := s.pc + BitVec.ofNat 16 n

/-! Ports. -/

/-- `IORead(port)` (20 R60): the byte the environment presents at the port, a free value where its answer lists none. -/
def State.portIn (s : State) (port : Byte) : Byte :=
  match s.inputs.ports.find? (fun x => x.1 == port) with
  | some x => x.2
  | none => Config.portByte port s.draws

/-- `IOWrite(port, v)` (20 R61): one observable event, after all earlier ones. -/
def State.portOut (s : State) (port v : Byte) : State := s.withOutTrace (s.outTrace ++ [(port, v)])

/-! Calls, returns, interrupt entry, reset. -/

/-- A transfer that pushes a return address: CALL, RST and interrupt entry (43 R211, R229; 60 R278). -/
def State.callTo (s : State) (target ret : Word) : State := (s.push16 ret).withPc target

/-- The return: PC <- Pop16() (43 R220). There is no return-from-interrupt instruction; a handler returns with RET, which
pops the pushed address and does not touch IE (60 R282). -/
def State.returnFrom (s : State) : State := s.drop16.withPc s.top16

/-- The control flip-flops after the acknowledgement of an interrupt: halted, IE and EI_shadow 0; the rest as given
(60 R278, R279). -/
def Control.acknowledged (c : Control) : Control := { c with halted := false, ie := false, eiShadow := false }

/-- TAKING AN INTERRUPT, the one shared operation (60 R278, R279, R280): halted, IE and EI_shadow become 0, PC, the address
of the instruction that would have executed next, is pushed, and PC goes to the restart address. Nothing else changes. -/
def State.enter (s : State) (vector : Word) : State := (s.withCtl s.ctl.acknowledged).callTo vector s.pc

/-- The control flip-flops after reset (70 R310). -/
def Control.afterReset : Control :=
  { ie := false, m75 := true, m65 := true, m55 := true, ff75 := false, sod := false, halted := false, eiShadow := false }

/-- The reset event (70 R310): the control flip-flops and PC are set; A to L, SP, the flags and memory are not changed by
any rule. -/
def State.resetEvent (s : State) : State := (s.withCtl Control.afterReset).withPc s.params.resetPc

end Sys2Proof.Machine
end

