-- ==== Sys2Proof/Machine/Operands.lean ====
section
/-! DEFINITION. Every operand form of the 8085: a register, a register pair or SP, `M`, and PSW's flag byte
(10_state.md R20 to R23, R30). Immediate operands are fields of the instruction (30_encoding.md R87, R88). -/

namespace Sys2Proof.Machine

/-- `x[i]`: read of a register (10 R20). -/
def Regs.get (g : Regs) : Reg → Byte
  | .a => g.a
  | .b => g.b
  | .c => g.c
  | .d => g.d
  | .e => g.e
  | .h => g.h
  | .l => g.l

/-- `x[i] <- v`: write of a register (10 R20). -/
def Regs.set (g : Regs) (r : Reg) (v : Byte) : Regs :=
  match r with
  | .a => { g with a := v }
  | .b => { g with b := v }
  | .c => { g with c := v }
  | .d => { g with d := v }
  | .e => { g with e := v }
  | .h => { g with h := v }
  | .l => { g with l := v }

def State.readReg (s : State) (r : Reg) : Byte := s.regs.get r

def State.writeReg (s : State) (r : Reg) (v : Byte) : State := s.withRegs (s.regs.set r v)

/-- BC = `B:C` (10 R23). -/
def State.bc (s : State) : Word := join s.regs.b s.regs.c

/-- DE = `D:E` (10 R23). -/
def State.de (s : State) : Word := join s.regs.d s.regs.e

/-- HL = `H:L` (10 R23). -/
def State.hl (s : State) : Word := join s.regs.h s.regs.l

/-- `rp[j]` (10 R23): read of a register pair or SP. -/
def State.readPair (s : State) : Pair → Word
  | .bc => s.bc
  | .de => s.de
  | .hl => s.hl
  | .sp => s.sp

/-- `rp[j] <- w` (00 R11): the high-order register takes `high(w)`, the low-order one `low(w)`. -/
def State.writePair (s : State) (p : Pair) (w : Word) : State :=
  match p with
  | .bc => (s.writeReg .b (high w)).writeReg .c (low w)
  | .de => (s.writeReg .d (high w)).writeReg .e (low w)
  | .hl => (s.writeReg .h (high w)).writeReg .l (low w)
  | .sp => s.withSp w

/-- Read of the operand `M`: the byte at HL (10 R22). -/
def State.readM (s : State) : Byte := s.readByte s.hl

/-- Write of the operand `M` (10 R22). -/
def State.writeM (s : State) (v : Byte) : State := s.writeByte s.hl v

end Sys2Proof.Machine
end

