-- ==== Sys2Proof/Machine/Flags.lean ====
section
/-! DEFINITION. Every flag computation of the 8085: S, Z, P of a result (10_state.md R28), the additions and subtractions
(41_arithmetic.md R141, R148), increment and decrement (R155, R157), DAD (R161), DAA (R162), the logic instructions
(42_logical.md R170), the rotates (R188 to R191), the flag byte (10 R30) and the conditions (43_branch.md R201). Sums are
computed on natural numbers and narrowed at the end (00_scope.md R7). -/

namespace Sys2Proof.Machine

/-- `SZP(v)`: S, Z and P from the byte `v`; AC and CY as given (10 R28). -/
def Flags.szp (f : Flags) (v : Byte) : Flags := { f with s := bit v 7, z := v == 0#8, p := parityEven v }

/-- A result byte with the flags the operation leaves. -/
structure AluResult where
  value : Byte
  flags : Flags
  deriving DecidableEq, Repr

/-- `Add8(a, b, cin)` (41 R141). -/
def add8 (a b : Byte) (cin : Bool) : AluResult :=
  let t := a.toNat + b.toNat + cin.toNat
  let r := BitVec.ofNat 8 t
  { value := r
    flags :=
      { s := bit r 7, z := r == 0#8, ac := decide (lowNibble a + lowNibble b + cin.toNat > 15), p := parityEven r,
        cy := decide (t > 255) } }

/-- `Sub8(a, b, bin)` (41 R148); `zeroNibble` is `AC_SUB_ZERO_NIBBLE`. -/
def sub8 (zeroNibble : Bool) (a b : Byte) (bin : Bool) : AluResult :=
  let r := BitVec.ofInt 8 ((a.toNat : Int) - b.toNat - bin.toNat)
  let n := lowNibble b + bin.toNat
  { value := r
    flags :=
      { s := bit r 7, z := r == 0#8, ac := if n = 0 then zeroNibble else decide (lowNibble a ≥ n), p := parityEven r,
        cy := decide (a.toNat < b.toNat + bin.toNat) } }

/-- The increment of INR (41 R155, R156): CY as given. -/
def inc8 (f : Flags) (v : Byte) : AluResult :=
  let r := BitVec.ofNat 8 (v.toNat + 1)
  { value := r, flags := { f with ac := lowNibble v == 15 }.szp r }

/-- The decrement of DCR (41 R157, R158): CY as given. -/
def dec8 (f : Flags) (v : Byte) : AluResult :=
  let r := BitVec.ofInt 8 ((v.toNat : Int) - 1)
  { value := r, flags := { f with ac := lowNibble v != 0 }.szp r }

/-- A logic result (42 R170): S, Z, P from the result, CY reset, AC as the instruction forces it. -/
def logic8 (ac : Bool) (r : Byte) : AluResult :=
  { value := r, flags := { s := bit r 7, z := r == 0#8, ac := ac, p := parityEven r, cy := false } }

/-- AND: AC is set (42 R171). -/
def and8 (a b : Byte) : AluResult := logic8 true (a &&& b)

/-- Exclusive OR: AC is reset (42 R174). -/
def xor8 (a b : Byte) : AluResult := logic8 false (a ^^^ b)

/-- OR: AC is reset (42 R177). -/
def or8 (a b : Byte) : AluResult := logic8 false (a ||| b)

/-- DAA (41 R162): step 1 on the low nibble, then step 2 on the high nibble of what step 1 left. -/
def daa8 (f : Flags) (a : Byte) : AluResult :=
  let fix1 := decide (lowNibble a > 9) || f.ac
  let ac' := fix1 && decide (lowNibble a + 6 > 15)
  let t := if fix1 then a.toNat + 6 else a.toNat
  let c1 := decide (t > 255)
  let a1 := BitVec.ofNat 8 t
  let fix2 := decide (highNibble a1 > 9) || f.cy || c1
  let a2 := if fix2 then BitVec.ofNat 8 (a1.toNat + 0x60) else a1
  { value := a2, flags := { s := bit a2 7, z := a2 == 0#8, ac := ac', p := parityEven a2, cy := f.cy || fix2 } }

/-- RLC (42 R188): the byte and the new CY. -/
def rotl (a : Byte) : Byte × Bool := (BitVec.ofNat 8 (a.toNat * 2 % 256 + (bit a 7).toNat), bit a 7)

/-- RRC (42 R189). -/
def rotr (a : Byte) : Byte × Bool := (BitVec.ofNat 8 (a.toNat / 2 + 128 * (bit a 0).toNat), bit a 0)

/-- RAL (42 R190): through Carry. -/
def rotlCarry (a : Byte) (cy : Bool) : Byte × Bool := (BitVec.ofNat 8 (a.toNat * 2 % 256 + cy.toNat), bit a 7)

/-- RAR (42 R191): through Carry. -/
def rotrCarry (a : Byte) (cy : Bool) : Byte × Bool := (BitVec.ofNat 8 (a.toNat / 2 + 128 * cy.toNat), bit a 0)

/-- The flags with a new CY, the others as they were (DAD, rotates, CMC, STC; 10 R31). -/
def Flags.withCy (f : Flags) (cy : Bool) : Flags := { f with cy := cy }

/-- CY after DAD (41 R161): the 17-bit sum exceeds FFFFH. -/
def dadCarry (x y : Word) : Bool := decide (x.toNat + y.toNat > 65535)

/-- The flag byte `F` (10 R30, 44 R242): S, Z, AC, P, CY at D7, D6, D4, D2, D0; `u` fills D5, D3, D1, its bit 2 at D5. -/
def Flags.toByte (f : Flags) (u : BitVec 3) : Byte :=
  byteOfBits f.s f.z (u.getLsbD 2) f.ac (u.getLsbD 1) f.p (u.getLsbD 0) f.cy

/-- The flags of a popped flag byte; D5, D3, D1 are discarded (10 R30, 44 R244). -/
def Flags.ofByte (v : Byte) : Flags := { s := bit v 7, z := bit v 6, ac := bit v 4, p := bit v 2, cy := bit v 0 }

/-- Bits D5, D3, D1 of the byte PUSH PSW writes: `FLAG_BYTE_UNUSED_BITS`, a free value of this draw if "any" (10 R30). -/
def State.unusedBits (s : State) : BitVec 3 :=
  match s.params.flagUnused with
  | some u => u
  | none => Config.flagByteUnused s.draws

/-- `cond(CCC)` (43 R201). -/
def Flags.cond (f : Flags) : Cond → Bool
  | .nz => !f.z
  | .z => f.z
  | .nc => !f.cy
  | .c => f.cy
  | .po => !f.p
  | .pe => f.p
  | .p => !f.s
  | .m => f.s

/-- The accumulator and the flags take a result; PC moves over `n` bytes. -/
def State.aluResult (s : State) (r : AluResult) (n : Nat) : State :=
  ((s.writeReg .a r.value).withFlags r.flags).advance n

/-- Only the flags take a result (CMP, CPI); PC moves over `n` bytes. -/
def State.compareResult (s : State) (r : AluResult) (n : Nat) : State := (s.withFlags r.flags).advance n

/-- The accumulator takes a rotated byte and CY the bit shifted out; PC moves over one byte. -/
def State.rotateResult (s : State) (r : Byte × Bool) : State :=
  ((s.writeReg .a r.1).withFlags (s.flags.withCy r.2)).advance 1

end Sys2Proof.Machine
end

