-- ==== Sys2Proof/Machine/StackIo.lean ====
section
/-! DEFINITION. The stack, I/O and machine control group (44_stack_io_control.md R241 to R264). -/

namespace Sys2Proof.Machine

/-- The control flip-flops after EI (44 R255): IE is set at once; `EI_shadow` by `EI_DELAY` (60 R285), under `either` by
a free bit of this draw. -/
def State.afterEi (s : State) : Control :=
  { s.ctl with
    ie := true
    eiShadow :=
      match s.params.eiDelay with
      | .none => false
      | .oneInstruction => true
      | .either => Config.eiDelays s.draws }

/-- The value of a named bit of the byte RIM loads (10 R45): the lines as the environment presents them while RIM executes,
the flip-flops as they stand. -/
def State.rimBit (s : State) : Config.RimBit → Bool
  | .sid => s.inputs.sid
  | .i75 => s.ctl.ff75
  | .i65 => s.inputs.run65
  | .i55 => s.inputs.run55
  | .ie => s.ctl.ie
  | .m75 => s.ctl.m75
  | .m65 => s.ctl.m65
  | .m55 => s.ctl.m55

/-- The byte RIM loads, by `RIM_LAYOUT` (10 R45, 44 R263). -/
def State.rimByte (s : State) : Byte :=
  byteOfBits (s.rimBit s.params.rimLayout.d7) (s.rimBit s.params.rimLayout.d6) (s.rimBit s.params.rimLayout.d5)
    (s.rimBit s.params.rimLayout.d4) (s.rimBit s.params.rimLayout.d3) (s.rimBit s.params.rimLayout.d2)
    (s.rimBit s.params.rimLayout.d1) (s.rimBit s.params.rimLayout.d0)

/-- The control flip-flops after SIM with accumulator `a` (10 R44, 44 R264): the masks if D3 (MSE), FF75 reset if D4
(R7.5), SOD if D6 (SDE). D5 has no effect. -/
def Control.simmed (c : Control) (a : Byte) : Control :=
  { c with
    m75 := if bit a 3 then bit a 2 else c.m75
    m65 := if bit a 3 then bit a 1 else c.m65
    m55 := if bit a 3 then bit a 0 else c.m55
    ff75 := if bit a 4 then false else c.ff75
    sod := if bit a 6 then bit a 7 else c.sod }

/-- The sequence of SOD values after SIM with accumulator `a` (10 R35, 70 R322). -/
def sodAfter (t : List Bool) (a : Byte) : List Bool := if bit a 6 then t ++ [bit a 7] else t

/-- PUSH rp: `11 PP 0101`, `PP != 11` (44 R241). -/
def execPushRp (p : Pair) (s : State) : Host.Outcome State Fault Refusal :=
  .next ((s.push16 (s.readPair p)).advance 1)

/-- PUSH PSW: F5 (44 R242). -/
def execPushPsw (s : State) : Host.Outcome State Fault Refusal :=
  .next ((s.push16 (join s.regs.a (s.flags.toByte s.unusedBits))).advance 1)

/-- POP rp: `11 PP 0001`, `PP != 11` (44 R243). -/
def execPopRp (p : Pair) (s : State) : Host.Outcome State Fault Refusal :=
  .next ((s.drop16.writePair p s.top16).advance 1)

/-- POP PSW: F1 (44 R244). -/
def execPopPsw (s : State) : Host.Outcome State Fault Refusal :=
  .next (((s.drop16.writeReg .a (high s.top16)).withFlags (Flags.ofByte (low s.top16))).advance 1)

/-- XTHL: E3 (44 R245). Both reads precede the writes. -/
def execXthl (s : State) : Host.Outcome State Fault Refusal :=
  .next ((((s.writeByte (s.sp + 1) s.regs.h).writeByte s.sp s.regs.l).writePair .hl s.top16).advance 1)

/-- SPHL: F9 (44 R246). -/
def execSphl (s : State) : Host.Outcome State Fault Refusal :=
  .next ((s.withSp s.hl).advance 1)

/-- IN p8: DB, p8 (44 R250). -/
def execInPort (port : Byte) (s : State) : Host.Outcome State Fault Refusal :=
  .next ((s.writeReg .a (s.portIn port)).advance 2)

/-- OUT p8: D3, p8 (44 R251). -/
def execOutPort (port : Byte) (s : State) : Host.Outcome State Fault Refusal :=
  .next ((s.portOut port s.regs.a).advance 2)

/-- EI: FB (44 R255). -/
def execEi (s : State) : Host.Outcome State Fault Refusal :=
  .next ((s.withCtl s.afterEi).advance 1)

/-- DI: F3 (44 R256). -/
def execDi (s : State) : Host.Outcome State Fault Refusal :=
  .next ((s.withCtl { s.ctl with ie := false }).advance 1)

/-- NOP: 00 (44 R260). -/
def execNop (s : State) : Host.Outcome State Fault Refusal :=
  .next (s.advance 1)

/-- HLT: 76 (44 R262). -/
def execHlt (s : State) : Host.Outcome State Fault Refusal :=
  .next ((s.withCtl { s.ctl with halted := true }).advance 1)

/-- RIM: 20 (44 R263). -/
def execRim (s : State) : Host.Outcome State Fault Refusal :=
  .next ((s.writeReg .a s.rimByte).advance 1)

/-- SIM: 30 (44 R264). A is not changed. -/
def execSim (s : State) : Host.Outcome State Fault Refusal :=
  .next (((s.withCtl (s.ctl.simmed s.regs.a)).withSodTrace (sodAfter s.sodTrace s.regs.a)).advance 1)

end Sys2Proof.Machine
end

