-- ==== Sys2Proof/Machine/Bus.lean ====
section
/-! DEFINITION. The memory and port accesses of each instruction, in the order performed: the table of 20_memory.md R57, as a
function of the instruction and the state it starts in. No meaning reads it: it is the bus side of the same machine,
statements compare the two, and a reset inside an instruction cuts this list short (Machine/Abandon.lean). -/

namespace Sys2Proof.Machine

/-- One access after another on the bus (20 R50, R51, R60, R61); each moves one byte. -/
inductive Access
  | read (a : Word)
  | write (a : Word) (v : Byte)
  | input (port : Byte)
  | output (port v : Byte)
  deriving DecidableEq, Repr

/-- The 16-bit address on the bus during an access; a port address is duplicated on both halves (20 R62). -/
def Access.busAddress : Access → Word
  | .read a => a
  | .write a _ => a
  | .input port => join port port
  | .output port _ => join port port

/-- The accesses of `Push16(w)`: the high-order byte first (20 R57, R71). -/
def State.pushAccesses (s : State) (w : Word) : List Access :=
  [.write (s.sp - 1) (high w), .write (s.sp - 2) (low w)]

/-- The accesses of `Pop16()`: the low-order byte first (20 R57, R72). -/
def State.popAccesses (s : State) : List Access := [.read s.sp, .read (s.sp + 1)]

/-- The condition of a conditional instruction (43 R200). -/
def condOf : Instr → Option Cond
  | .jnz _ | .cnz _ | .rnz => some .nz
  | .jz _ | .cz _ | .rz => some .z
  | .jnc _ | .cnc _ | .rnc => some .nc
  | .jc _ | .cc _ | .rc => some .c
  | .jpo _ | .cpo _ | .rpo => some .po
  | .jpe _ | .cpe _ | .rpe => some .pe
  | .jp _ | .cp _ | .rp => some .p
  | .jm _ | .cm _ | .rm => some .m
  | .movRR _ _ | .movRM _ | .movMR _ | .mviR _ _ | .mviM _ | .lxi _ _ | .lda _ | .sta _ | .ldax _
  | .stax _ | .lhld _ | .shld _ | .xchg | .addR _ | .addM | .adcR _ | .adcM | .subR _ | .subM
  | .sbbR _ | .sbbM | .anaR _ | .anaM | .xraR _ | .xraM | .oraR _ | .oraM | .cmpR _ | .cmpM | .adi _
  | .aci _ | .sui _ | .sbi _ | .ani _ | .xri _ | .ori _ | .cpi _ | .inrR _ | .inrM | .dcrR _ | .dcrM
  | .inx _ | .dcx _ | .dad _ | .daa | .rlc | .rrc | .ral | .rar | .cma | .cmc | .stc | .jmp _
  | .call _ | .ret | .rst _ | .pchl | .pushRp _ | .pushPsw | .popRp _ | .popPsw | .xthl | .sphl
  | .inPort _ | .outPort _ | .ei | .di | .nop | .hlt | .rim | .sim | .undefined08 | .undefined10
  | .undefined18 | .undefined28 | .undefined38 | .undefinedCB | .undefinedD9 | .undefinedDD
  | .undefinedED | .undefinedFD =>
    none

/-- Whether an instruction transfers control if it is conditional; true of every other instruction. -/
def taken (i : Instr) (f : Flags) : Bool :=
  match condOf i with
  | some cc => f.cond cc
  | none => true

/-- The operand bytes read after the opcode: all of them, but only the second byte by a conditional jump or call whose
condition is false (20 R57). -/
def State.operandAccesses (s : State) (i : Instr) : List Access :=
  match (encode i).length with
  | 2 => [.read (s.pc + 1)]
  | 3 => if taken i s.flags then [.read (s.pc + 1), .read (s.pc + 2)] else [.read (s.pc + 1)]
  | _ => []

/-- The accesses after the instruction's own bytes (20 R57). -/
def State.dataAccesses (s : State) : Instr → List Access
  | .movRR _ _ => []
  | .movRM _ => [.read s.hl]
  | .movMR rs => [.write s.hl (s.readReg rs)]
  | .mviR _ _ => []
  | .mviM v => [.write s.hl v]
  | .lxi _ _ => []
  | .lda a => [.read a]
  | .sta a => [.write a s.regs.a]
  | .ldax p => [.read (s.readPair p)]
  | .stax p => [.write (s.readPair p) s.regs.a]
  | .lhld a => [.read a, .read (a + 1)]
  | .shld a => [.write a s.regs.l, .write (a + 1) s.regs.h]
  | .xchg => []
  | .addR _ => []
  | .addM => [.read s.hl]
  | .adcR _ => []
  | .adcM => [.read s.hl]
  | .subR _ => []
  | .subM => [.read s.hl]
  | .sbbR _ => []
  | .sbbM => [.read s.hl]
  | .anaR _ => []
  | .anaM => [.read s.hl]
  | .xraR _ => []
  | .xraM => [.read s.hl]
  | .oraR _ => []
  | .oraM => [.read s.hl]
  | .cmpR _ => []
  | .cmpM => [.read s.hl]
  | .adi _ => []
  | .aci _ => []
  | .sui _ => []
  | .sbi _ => []
  | .ani _ => []
  | .xri _ => []
  | .ori _ => []
  | .cpi _ => []
  | .inrR _ => []
  | .inrM => [.read s.hl, .write s.hl (s.readM + 1)]
  | .dcrR _ => []
  | .dcrM => [.read s.hl, .write s.hl (s.readM - 1)]
  | .inx _ => []
  | .dcx _ => []
  | .dad _ => []
  | .daa => []
  | .rlc => []
  | .rrc => []
  | .ral => []
  | .rar => []
  | .cma => []
  | .cmc => []
  | .stc => []
  | .jmp _ => []
  | .jnz _ => []
  | .jz _ => []
  | .jnc _ => []
  | .jc _ => []
  | .jpo _ => []
  | .jpe _ => []
  | .jp _ => []
  | .jm _ => []
  | .call _ => s.pushAccesses (s.nextPc 3)
  | .cnz _ => if s.flags.cond .nz then s.pushAccesses (s.nextPc 3) else []
  | .cz _ => if s.flags.cond .z then s.pushAccesses (s.nextPc 3) else []
  | .cnc _ => if s.flags.cond .nc then s.pushAccesses (s.nextPc 3) else []
  | .cc _ => if s.flags.cond .c then s.pushAccesses (s.nextPc 3) else []
  | .cpo _ => if s.flags.cond .po then s.pushAccesses (s.nextPc 3) else []
  | .cpe _ => if s.flags.cond .pe then s.pushAccesses (s.nextPc 3) else []
  | .cp _ => if s.flags.cond .p then s.pushAccesses (s.nextPc 3) else []
  | .cm _ => if s.flags.cond .m then s.pushAccesses (s.nextPc 3) else []
  | .ret => s.popAccesses
  | .rnz => if s.flags.cond .nz then s.popAccesses else []
  | .rz => if s.flags.cond .z then s.popAccesses else []
  | .rnc => if s.flags.cond .nc then s.popAccesses else []
  | .rc => if s.flags.cond .c then s.popAccesses else []
  | .rpo => if s.flags.cond .po then s.popAccesses else []
  | .rpe => if s.flags.cond .pe then s.popAccesses else []
  | .rp => if s.flags.cond .p then s.popAccesses else []
  | .rm => if s.flags.cond .m then s.popAccesses else []
  | .rst _ => s.pushAccesses (s.nextPc 1)
  | .pchl => []
  | .pushRp p => s.pushAccesses (s.readPair p)
  | .pushPsw => s.pushAccesses (join s.regs.a (s.flags.toByte s.unusedBits))
  | .popRp _ => s.popAccesses
  | .popPsw => s.popAccesses
  | .xthl => [.read s.sp, .read (s.sp + 1), .write (s.sp + 1) s.regs.h, .write s.sp s.regs.l]
  | .sphl => []
  | .inPort port => [.input port]
  | .outPort port => [.output port s.regs.a]
  | .ei => []
  | .di => []
  | .nop => []
  | .hlt => []
  | .rim => []
  | .sim => []
  | .undefined08 => []
  | .undefined10 => []
  | .undefined18 => []
  | .undefined28 => []
  | .undefined38 => []
  | .undefinedCB => []
  | .undefinedD9 => []
  | .undefinedDD => []
  | .undefinedED => []
  | .undefinedFD => []

/-- All accesses of an instruction, the opcode fetch first (20 R57). -/
def State.accesses (s : State) (i : Instr) : List Access :=
  .read s.pc :: (s.operandAccesses i ++ s.dataAccesses i)

/-- What the platform keeps of an access: a write changes memory, an output is an event; a read and an input leave nothing. -/
def State.applyAccess (s : State) : Access → State
  | .read _ => s
  | .write a v => s.writeByte a v
  | .input _ => s
  | .output port v => s.portOut port v

/-- What the platform keeps of a list of accesses, in order. -/
def State.applyAccesses (s : State) (l : List Access) : State := l.foldl State.applyAccess s

/-- The addresses an instruction stores to (20 R57). -/
def State.storedAddresses (s : State) (i : Instr) : List Word :=
  (s.dataAccesses i).filterMap fun x =>
    match x with
    | .write a _ => some a
    | .read _ => none
    | .input _ => none
    | .output _ _ => none

end Sys2Proof.Machine
end

