-- ==== Sys2Proof/Machine/Arithmetic.lean ====
section
/-! DEFINITION. The arithmetic group (41_arithmetic.md R142 to R162). -/

namespace Sys2Proof.Machine

/-- ADD Rs: `10 000 SSS` (41 R142). -/
def execAddR (rs : Reg) (s : State) : Host.Outcome State Fault Refusal :=
  .next (s.aluResult (add8 s.regs.a (s.readReg rs) false) 1)

/-- ADD M: `10 000 110` (41 R143). -/
def execAddM (s : State) : Host.Outcome State Fault Refusal :=
  .next (s.aluResult (add8 s.regs.a s.readM false) 1)

/-- ADI d8: C6, d8 (41 R146). -/
def execAdi (v : Byte) (s : State) : Host.Outcome State Fault Refusal :=
  .next (s.aluResult (add8 s.regs.a v false) 2)

/-- ADC Rs: `10 001 SSS` (41 R144). -/
def execAdcR (rs : Reg) (s : State) : Host.Outcome State Fault Refusal :=
  .next (s.aluResult (add8 s.regs.a (s.readReg rs) s.flags.cy) 1)

/-- ADC M: `10 001 110` (41 R145). -/
def execAdcM (s : State) : Host.Outcome State Fault Refusal :=
  .next (s.aluResult (add8 s.regs.a s.readM s.flags.cy) 1)

/-- ACI d8: CE, d8 (41 R147). -/
def execAci (v : Byte) (s : State) : Host.Outcome State Fault Refusal :=
  .next (s.aluResult (add8 s.regs.a v s.flags.cy) 2)

/-- SUB Rs: `10 010 SSS` (41 R149). -/
def execSubR (rs : Reg) (s : State) : Host.Outcome State Fault Refusal :=
  .next (s.aluResult (sub8 s.params.acSubZeroNibble s.regs.a (s.readReg rs) false) 1)

/-- SUB M: `10 010 110` (41 R150). -/
def execSubM (s : State) : Host.Outcome State Fault Refusal :=
  .next (s.aluResult (sub8 s.params.acSubZeroNibble s.regs.a s.readM false) 1)

/-- SUI d8: D6, d8 (41 R153). -/
def execSui (v : Byte) (s : State) : Host.Outcome State Fault Refusal :=
  .next (s.aluResult (sub8 s.params.acSubZeroNibble s.regs.a v false) 2)

/-- SBB Rs: `10 011 SSS` (41 R151). -/
def execSbbR (rs : Reg) (s : State) : Host.Outcome State Fault Refusal :=
  .next (s.aluResult (sub8 s.params.acSubZeroNibble s.regs.a (s.readReg rs) s.flags.cy) 1)

/-- SBB M: `10 011 110` (41 R152). -/
def execSbbM (s : State) : Host.Outcome State Fault Refusal :=
  .next (s.aluResult (sub8 s.params.acSubZeroNibble s.regs.a s.readM s.flags.cy) 1)

/-- SBI d8: DE, d8 (41 R154). -/
def execSbi (v : Byte) (s : State) : Host.Outcome State Fault Refusal :=
  .next (s.aluResult (sub8 s.params.acSubZeroNibble s.regs.a v s.flags.cy) 2)

/-- INR Rd: `00 DDD 100` (41 R155). -/
def execInrR (rd : Reg) (s : State) : Host.Outcome State Fault Refusal :=
  .next (((s.writeReg rd (inc8 s.flags (s.readReg rd)).value).withFlags (inc8 s.flags (s.readReg rd)).flags).advance 1)

/-- INR M: 34 (41 R156). The read precedes the write. -/
def execInrM (s : State) : Host.Outcome State Fault Refusal :=
  .next (((s.writeM (inc8 s.flags s.readM).value).withFlags (inc8 s.flags s.readM).flags).advance 1)

/-- DCR Rd: `00 DDD 101` (41 R157). -/
def execDcrR (rd : Reg) (s : State) : Host.Outcome State Fault Refusal :=
  .next (((s.writeReg rd (dec8 s.flags (s.readReg rd)).value).withFlags (dec8 s.flags (s.readReg rd)).flags).advance 1)

/-- DCR M: 35 (41 R158). The read precedes the write. -/
def execDcrM (s : State) : Host.Outcome State Fault Refusal :=
  .next (((s.writeM (dec8 s.flags s.readM).value).withFlags (dec8 s.flags s.readM).flags).advance 1)

/-- INX rp: `00 PP 0011` (41 R159). -/
def execInx (p : Pair) (s : State) : Host.Outcome State Fault Refusal :=
  .next ((s.writePair p (s.readPair p + 1)).advance 1)

/-- DCX rp: `00 PP 1011` (41 R160). -/
def execDcx (p : Pair) (s : State) : Host.Outcome State Fault Refusal :=
  .next ((s.writePair p (s.readPair p - 1)).advance 1)

/-- DAD rp: `00 PP 1001` (41 R161). -/
def execDad (p : Pair) (s : State) : Host.Outcome State Fault Refusal :=
  .next (((s.writePair .hl (s.hl + s.readPair p)).withFlags (s.flags.withCy (dadCarry s.hl (s.readPair p)))).advance 1)

/-- DAA: 27 (41 R162). -/
def execDaa (s : State) : Host.Outcome State Fault Refusal :=
  .next (s.aluResult (daa8 s.flags s.regs.a) 1)

end Sys2Proof.Machine
end

