-- ==== Sys2Proof/Machine/Branch.lean ====
section
/-! DEFINITION. The branch group (43_branch.md R202 to R230). No instruction of it affects a flag (R200). -/

namespace Sys2Proof.Machine

/-- A conditional jump (43 R200, R203 to R210): to `a` if the condition holds, else over three bytes. -/
def State.jumpIf (s : State) (cc : Cond) (a : Word) : State :=
  if s.flags.cond cc then s.withPc a else s.advance 3

/-- A conditional call (43 R200, R212 to R219). -/
def State.callIf (s : State) (cc : Cond) (a : Word) : State :=
  if s.flags.cond cc then s.callTo a (s.nextPc 3) else s.advance 3

/-- A conditional return (43 R200, R221 to R228). -/
def State.returnIf (s : State) (cc : Cond) : State :=
  if s.flags.cond cc then s.returnFrom else s.advance 1

/-- The restart address 8 * n (30 R89, 43 R229). -/
def restartAddress (n : Nat) : Word := BitVec.ofNat 16 (8 * n)

/-- JMP a16: C3, low, high (43 R202). -/
def execJmp (a : Word) (s : State) : Host.Outcome State Fault Refusal :=
  .next (s.withPc a)

/-- JNZ a16: C2, low, high (43 R203). -/
def execJnz (a : Word) (s : State) : Host.Outcome State Fault Refusal :=
  .next (s.jumpIf .nz a)

/-- JZ a16: CA, low, high (43 R204). -/
def execJz (a : Word) (s : State) : Host.Outcome State Fault Refusal :=
  .next (s.jumpIf .z a)

/-- JNC a16: D2, low, high (43 R205). -/
def execJnc (a : Word) (s : State) : Host.Outcome State Fault Refusal :=
  .next (s.jumpIf .nc a)

/-- JC a16: DA, low, high (43 R206). -/
def execJc (a : Word) (s : State) : Host.Outcome State Fault Refusal :=
  .next (s.jumpIf .c a)

/-- JPO a16: E2, low, high (43 R207). -/
def execJpo (a : Word) (s : State) : Host.Outcome State Fault Refusal :=
  .next (s.jumpIf .po a)

/-- JPE a16: EA, low, high (43 R208). -/
def execJpe (a : Word) (s : State) : Host.Outcome State Fault Refusal :=
  .next (s.jumpIf .pe a)

/-- JP a16: F2, low, high (43 R209). -/
def execJp (a : Word) (s : State) : Host.Outcome State Fault Refusal :=
  .next (s.jumpIf .p a)

/-- JM a16: FA, low, high (43 R210). -/
def execJm (a : Word) (s : State) : Host.Outcome State Fault Refusal :=
  .next (s.jumpIf .m a)

/-- CALL a16: CD, low, high (43 R211). -/
def execCall (a : Word) (s : State) : Host.Outcome State Fault Refusal :=
  .next (s.callTo a (s.nextPc 3))

/-- CNZ a16: C4, low, high (43 R212). -/
def execCnz (a : Word) (s : State) : Host.Outcome State Fault Refusal :=
  .next (s.callIf .nz a)

/-- CZ a16: CC, low, high (43 R213). -/
def execCz (a : Word) (s : State) : Host.Outcome State Fault Refusal :=
  .next (s.callIf .z a)

/-- CNC a16: D4, low, high (43 R214). -/
def execCnc (a : Word) (s : State) : Host.Outcome State Fault Refusal :=
  .next (s.callIf .nc a)

/-- CC a16: DC, low, high (43 R215). -/
def execCc (a : Word) (s : State) : Host.Outcome State Fault Refusal :=
  .next (s.callIf .c a)

/-- CPO a16: E4, low, high (43 R216). -/
def execCpo (a : Word) (s : State) : Host.Outcome State Fault Refusal :=
  .next (s.callIf .po a)

/-- CPE a16: EC, low, high (43 R217). -/
def execCpe (a : Word) (s : State) : Host.Outcome State Fault Refusal :=
  .next (s.callIf .pe a)

/-- CP a16: F4, low, high (43 R218). -/
def execCp (a : Word) (s : State) : Host.Outcome State Fault Refusal :=
  .next (s.callIf .p a)

/-- CM a16: FC, low, high (43 R219). -/
def execCm (a : Word) (s : State) : Host.Outcome State Fault Refusal :=
  .next (s.callIf .m a)

/-- RET: C9 (43 R220). -/
def execRet (s : State) : Host.Outcome State Fault Refusal :=
  .next (s.returnFrom)

/-- RNZ: C0 (43 R221). -/
def execRnz (s : State) : Host.Outcome State Fault Refusal :=
  .next (s.returnIf .nz)

/-- RZ: C8 (43 R222). -/
def execRz (s : State) : Host.Outcome State Fault Refusal :=
  .next (s.returnIf .z)

/-- RNC: D0 (43 R223). -/
def execRnc (s : State) : Host.Outcome State Fault Refusal :=
  .next (s.returnIf .nc)

/-- RC: D8 (43 R224). -/
def execRc (s : State) : Host.Outcome State Fault Refusal :=
  .next (s.returnIf .c)

/-- RPO: E0 (43 R225). -/
def execRpo (s : State) : Host.Outcome State Fault Refusal :=
  .next (s.returnIf .po)

/-- RPE: E8 (43 R226). -/
def execRpe (s : State) : Host.Outcome State Fault Refusal :=
  .next (s.returnIf .pe)

/-- RP: F0 (43 R227). -/
def execRp (s : State) : Host.Outcome State Fault Refusal :=
  .next (s.returnIf .p)

/-- RM: F8 (43 R228). -/
def execRm (s : State) : Host.Outcome State Fault Refusal :=
  .next (s.returnIf .m)

/-- RST n: `11 NNN 111` (43 R229). IE is not touched. -/
def execRst (n : Nat) (s : State) : Host.Outcome State Fault Refusal :=
  .next (s.callTo (restartAddress n) (s.nextPc 1))

/-- PCHL: E9 (43 R230). -/
def execPchl (s : State) : Host.Outcome State Fault Refusal :=
  .next (s.withPc s.hl)

end Sys2Proof.Machine
end

