-- ==== Sys2Proof/Machine/DataTransfer.lean ====
section
/-! DEFINITION. The data transfer group (40_data_transfer.md R111 to R123). No instruction of it affects a flag (R110). -/

namespace Sys2Proof.Machine

/-- MOV Rd,Rs: `01 DDD SSS` (40 R111). -/
def execMovRR (rd : Reg) (rs : Reg) (s : State) : Host.Outcome State Fault Refusal :=
  .next ((s.writeReg rd (s.readReg rs)).advance 1)

/-- MOV Rd,M: `01 DDD 110` (40 R112). HL is read before `Rd` is written. -/
def execMovRM (rd : Reg) (s : State) : Host.Outcome State Fault Refusal :=
  .next ((s.writeReg rd s.readM).advance 1)

/-- MOV M,Rs: `01 110 SSS` (40 R113). -/
def execMovMR (rs : Reg) (s : State) : Host.Outcome State Fault Refusal :=
  .next ((s.writeM (s.readReg rs)).advance 1)

/-- MVI Rd,d8: `00 DDD 110`, d8 (40 R114). -/
def execMviR (rd : Reg) (v : Byte) (s : State) : Host.Outcome State Fault Refusal :=
  .next ((s.writeReg rd v).advance 2)

/-- MVI M,d8: 36, d8 (40 R115). -/
def execMviM (v : Byte) (s : State) : Host.Outcome State Fault Refusal :=
  .next ((s.writeM v).advance 2)

/-- LXI rp,d16: `00 PP 0001`, low, high (40 R116). -/
def execLxi (p : Pair) (w : Word) (s : State) : Host.Outcome State Fault Refusal :=
  .next ((s.writePair p w).advance 3)

/-- LDA a16: 3A, low, high (40 R117). -/
def execLda (a : Word) (s : State) : Host.Outcome State Fault Refusal :=
  .next ((s.writeReg .a (s.readByte a)).advance 3)

/-- STA a16: 32, low, high (40 R118). -/
def execSta (a : Word) (s : State) : Host.Outcome State Fault Refusal :=
  .next ((s.writeByte a s.regs.a).advance 3)

/-- LDAX rp: `000 P 1010` (40 R119). -/
def execLdax (p : Pair) (s : State) : Host.Outcome State Fault Refusal :=
  .next ((s.writeReg .a (s.readByte (s.readPair p))).advance 1)

/-- STAX rp: `000 P 0010` (40 R120). -/
def execStax (p : Pair) (s : State) : Host.Outcome State Fault Refusal :=
  .next ((s.writeByte (s.readPair p) s.regs.a).advance 1)

/-- LHLD a16: 2A, low, high (40 R121). The second address is `a + 1` mod 65536. -/
def execLhld (a : Word) (s : State) : Host.Outcome State Fault Refusal :=
  .next (((s.writeReg .l (s.readByte a)).writeReg .h (s.readByte (a + 1))).advance 3)

/-- SHLD a16: 22, low, high (40 R122). The second address is `a + 1` mod 65536. -/
def execShld (a : Word) (s : State) : Host.Outcome State Fault Refusal :=
  .next (((s.writeByte a s.regs.l).writeByte (a + 1) s.regs.h).advance 3)

/-- XCHG: EB (40 R123). -/
def execXchg (s : State) : Host.Outcome State Fault Refusal :=
  .next (((s.writePair .hl s.de).writePair .de s.hl).advance 1)

end Sys2Proof.Machine
end

