-- ==== Sys2Proof/Machine/Logical.lean ====
section
/-! DEFINITION. The logical group (42_logical.md R171 to R194). -/

namespace Sys2Proof.Machine

/-- ANA Rs: `10 100 SSS` (42 R171). -/
def execAnaR (rs : Reg) (s : State) : Host.Outcome State Fault Refusal :=
  .next (s.aluResult (and8 s.regs.a (s.readReg rs)) 1)

/-- ANA M: `10 100 110` (42 R172). -/
def execAnaM (s : State) : Host.Outcome State Fault Refusal :=
  .next (s.aluResult (and8 s.regs.a s.readM) 1)

/-- ANI d8: E6, d8 (42 R173). -/
def execAni (v : Byte) (s : State) : Host.Outcome State Fault Refusal :=
  .next (s.aluResult (and8 s.regs.a v) 2)

/-- XRA Rs: `10 101 SSS` (42 R174). -/
def execXraR (rs : Reg) (s : State) : Host.Outcome State Fault Refusal :=
  .next (s.aluResult (xor8 s.regs.a (s.readReg rs)) 1)

/-- XRA M: `10 101 110` (42 R175). -/
def execXraM (s : State) : Host.Outcome State Fault Refusal :=
  .next (s.aluResult (xor8 s.regs.a s.readM) 1)

/-- XRI d8: EE, d8 (42 R176). -/
def execXri (v : Byte) (s : State) : Host.Outcome State Fault Refusal :=
  .next (s.aluResult (xor8 s.regs.a v) 2)

/-- ORA Rs: `10 110 SSS` (42 R177). -/
def execOraR (rs : Reg) (s : State) : Host.Outcome State Fault Refusal :=
  .next (s.aluResult (or8 s.regs.a (s.readReg rs)) 1)

/-- ORA M: `10 110 110` (42 R178). -/
def execOraM (s : State) : Host.Outcome State Fault Refusal :=
  .next (s.aluResult (or8 s.regs.a s.readM) 1)

/-- ORI d8: F6, d8 (42 R179). -/
def execOri (v : Byte) (s : State) : Host.Outcome State Fault Refusal :=
  .next (s.aluResult (or8 s.regs.a v) 2)

/-- CMP Rs: `10 111 SSS` (42 R180). -/
def execCmpR (rs : Reg) (s : State) : Host.Outcome State Fault Refusal :=
  .next (s.compareResult (sub8 s.params.acSubZeroNibble s.regs.a (s.readReg rs) false) 1)

/-- CMP M: `10 111 110` (42 R181). -/
def execCmpM (s : State) : Host.Outcome State Fault Refusal :=
  .next (s.compareResult (sub8 s.params.acSubZeroNibble s.regs.a s.readM false) 1)

/-- CPI d8: FE, d8 (42 R182). -/
def execCpi (v : Byte) (s : State) : Host.Outcome State Fault Refusal :=
  .next (s.compareResult (sub8 s.params.acSubZeroNibble s.regs.a v false) 2)

/-- RLC: 07 (42 R188). -/
def execRlc (s : State) : Host.Outcome State Fault Refusal :=
  .next (s.rotateResult (rotl s.regs.a))

/-- RRC: 0F (42 R189). -/
def execRrc (s : State) : Host.Outcome State Fault Refusal :=
  .next (s.rotateResult (rotr s.regs.a))

/-- RAL: 17 (42 R190). -/
def execRal (s : State) : Host.Outcome State Fault Refusal :=
  .next (s.rotateResult (rotlCarry s.regs.a s.flags.cy))

/-- RAR: 1F (42 R191). -/
def execRar (s : State) : Host.Outcome State Fault Refusal :=
  .next (s.rotateResult (rotrCarry s.regs.a s.flags.cy))

/-- CMA: 2F (42 R192). -/
def execCma (s : State) : Host.Outcome State Fault Refusal :=
  .next ((s.writeReg .a (~~~s.regs.a)).advance 1)

/-- CMC: 3F (42 R193). -/
def execCmc (s : State) : Host.Outcome State Fault Refusal :=
  .next ((s.withFlags (s.flags.withCy (!s.flags.cy))).advance 1)

/-- STC: 37 (42 R194). -/
def execStc (s : State) : Host.Outcome State Fault Refusal :=
  .next ((s.withFlags (s.flags.withCy true)).advance 1)

end Sys2Proof.Machine
end

