-- ==== Sys2Proof/Machine/Undefined.lean ====
section
/-! DEFINITION. The ten first bytes to which the spec assigns no instruction: "A model must not give them a meaning: it refuses a program
that reaches one" (30_encoding.md R96, 92 D6). -/

namespace Sys2Proof.Machine

/-- The first byte 08: `UNDEFINED_OPCODE_BEHAVIOUR = refuse` (30 R96). -/
def execUndefined08 (_ : State) : Host.Outcome State Fault Refusal :=
  .refused (.undefinedOpcode 0x08#8)

/-- The first byte 10: `UNDEFINED_OPCODE_BEHAVIOUR = refuse` (30 R96). -/
def execUndefined10 (_ : State) : Host.Outcome State Fault Refusal :=
  .refused (.undefinedOpcode 0x10#8)

/-- The first byte 18: `UNDEFINED_OPCODE_BEHAVIOUR = refuse` (30 R96). -/
def execUndefined18 (_ : State) : Host.Outcome State Fault Refusal :=
  .refused (.undefinedOpcode 0x18#8)

/-- The first byte 28: `UNDEFINED_OPCODE_BEHAVIOUR = refuse` (30 R96). -/
def execUndefined28 (_ : State) : Host.Outcome State Fault Refusal :=
  .refused (.undefinedOpcode 0x28#8)

/-- The first byte 38: `UNDEFINED_OPCODE_BEHAVIOUR = refuse` (30 R96). -/
def execUndefined38 (_ : State) : Host.Outcome State Fault Refusal :=
  .refused (.undefinedOpcode 0x38#8)

/-- The first byte CB: `UNDEFINED_OPCODE_BEHAVIOUR = refuse` (30 R96). -/
def execUndefinedCB (_ : State) : Host.Outcome State Fault Refusal :=
  .refused (.undefinedOpcode 0xCB#8)

/-- The first byte D9: `UNDEFINED_OPCODE_BEHAVIOUR = refuse` (30 R96). -/
def execUndefinedD9 (_ : State) : Host.Outcome State Fault Refusal :=
  .refused (.undefinedOpcode 0xD9#8)

/-- The first byte DD: `UNDEFINED_OPCODE_BEHAVIOUR = refuse` (30 R96). -/
def execUndefinedDD (_ : State) : Host.Outcome State Fault Refusal :=
  .refused (.undefinedOpcode 0xDD#8)

/-- The first byte ED: `UNDEFINED_OPCODE_BEHAVIOUR = refuse` (30 R96). -/
def execUndefinedED (_ : State) : Host.Outcome State Fault Refusal :=
  .refused (.undefinedOpcode 0xED#8)

/-- The first byte FD: `UNDEFINED_OPCODE_BEHAVIOUR = refuse` (30 R96). -/
def execUndefinedFD (_ : State) : Host.Outcome State Fault Refusal :=
  .refused (.undefinedOpcode 0xFD#8)

end Sys2Proof.Machine
end

