-- ==== Sys2Proof/Machine/Dispatch.lean ====
section
/-! DEFINITION. The meaning of each instruction: one arm per constructor of Instr. -/

namespace Sys2Proof.Machine

def exec (i : Instr) (s : State) : Host.Outcome State Fault Refusal :=
  match i with
  | .movRR rd rs => Sys2Proof.Machine.execMovRR rd rs s
  | .movRM rd => Sys2Proof.Machine.execMovRM rd s
  | .movMR rs => Sys2Proof.Machine.execMovMR rs s
  | .mviR rd v => Sys2Proof.Machine.execMviR rd v s
  | .mviM v => Sys2Proof.Machine.execMviM v s
  | .lxi p w => Sys2Proof.Machine.execLxi p w s
  | .lda a => Sys2Proof.Machine.execLda a s
  | .sta a => Sys2Proof.Machine.execSta a s
  | .ldax p => Sys2Proof.Machine.execLdax p s
  | .stax p => Sys2Proof.Machine.execStax p s
  | .lhld a => Sys2Proof.Machine.execLhld a s
  | .shld a => Sys2Proof.Machine.execShld a s
  | .xchg => Sys2Proof.Machine.execXchg s
  | .addR rs => Sys2Proof.Machine.execAddR rs s
  | .addM => Sys2Proof.Machine.execAddM s
  | .adcR rs => Sys2Proof.Machine.execAdcR rs s
  | .adcM => Sys2Proof.Machine.execAdcM s
  | .subR rs => Sys2Proof.Machine.execSubR rs s
  | .subM => Sys2Proof.Machine.execSubM s
  | .sbbR rs => Sys2Proof.Machine.execSbbR rs s
  | .sbbM => Sys2Proof.Machine.execSbbM s
  | .anaR rs => Sys2Proof.Machine.execAnaR rs s
  | .anaM => Sys2Proof.Machine.execAnaM s
  | .xraR rs => Sys2Proof.Machine.execXraR rs s
  | .xraM => Sys2Proof.Machine.execXraM s
  | .oraR rs => Sys2Proof.Machine.execOraR rs s
  | .oraM => Sys2Proof.Machine.execOraM s
  | .cmpR rs => Sys2Proof.Machine.execCmpR rs s
  | .cmpM => Sys2Proof.Machine.execCmpM s
  | .adi v => Sys2Proof.Machine.execAdi v s
  | .aci v => Sys2Proof.Machine.execAci v s
  | .sui v => Sys2Proof.Machine.execSui v s
  | .sbi v => Sys2Proof.Machine.execSbi v s
  | .ani v => Sys2Proof.Machine.execAni v s
  | .xri v => Sys2Proof.Machine.execXri v s
  | .ori v => Sys2Proof.Machine.execOri v s
  | .cpi v => Sys2Proof.Machine.execCpi v s
  | .inrR rd => Sys2Proof.Machine.execInrR rd s
  | .inrM => Sys2Proof.Machine.execInrM s
  | .dcrR rd => Sys2Proof.Machine.execDcrR rd s
  | .dcrM => Sys2Proof.Machine.execDcrM s
  | .inx p => Sys2Proof.Machine.execInx p s
  | .dcx p => Sys2Proof.Machine.execDcx p s
  | .dad p => Sys2Proof.Machine.execDad p s
  | .daa => Sys2Proof.Machine.execDaa s
  | .rlc => Sys2Proof.Machine.execRlc s
  | .rrc => Sys2Proof.Machine.execRrc s
  | .ral => Sys2Proof.Machine.execRal s
  | .rar => Sys2Proof.Machine.execRar s
  | .cma => Sys2Proof.Machine.execCma s
  | .cmc => Sys2Proof.Machine.execCmc s
  | .stc => Sys2Proof.Machine.execStc s
  | .jmp a => Sys2Proof.Machine.execJmp a s
  | .jnz a => Sys2Proof.Machine.execJnz a s
  | .jz a => Sys2Proof.Machine.execJz a s
  | .jnc a => Sys2Proof.Machine.execJnc a s
  | .jc a => Sys2Proof.Machine.execJc a s
  | .jpo a => Sys2Proof.Machine.execJpo a s
  | .jpe a => Sys2Proof.Machine.execJpe a s
  | .jp a => Sys2Proof.Machine.execJp a s
  | .jm a => Sys2Proof.Machine.execJm a s
  | .call a => Sys2Proof.Machine.execCall a s
  | .cnz a => Sys2Proof.Machine.execCnz a s
  | .cz a => Sys2Proof.Machine.execCz a s
  | .cnc a => Sys2Proof.Machine.execCnc a s
  | .cc a => Sys2Proof.Machine.execCc a s
  | .cpo a => Sys2Proof.Machine.execCpo a s
  | .cpe a => Sys2Proof.Machine.execCpe a s
  | .cp a => Sys2Proof.Machine.execCp a s
  | .cm a => Sys2Proof.Machine.execCm a s
  | .ret => Sys2Proof.Machine.execRet s
  | .rnz => Sys2Proof.Machine.execRnz s
  | .rz => Sys2Proof.Machine.execRz s
  | .rnc => Sys2Proof.Machine.execRnc s
  | .rc => Sys2Proof.Machine.execRc s
  | .rpo => Sys2Proof.Machine.execRpo s
  | .rpe => Sys2Proof.Machine.execRpe s
  | .rp => Sys2Proof.Machine.execRp s
  | .rm => Sys2Proof.Machine.execRm s
  | .rst n => Sys2Proof.Machine.execRst n s
  | .pchl => Sys2Proof.Machine.execPchl s
  | .pushRp p => Sys2Proof.Machine.execPushRp p s
  | .pushPsw => Sys2Proof.Machine.execPushPsw s
  | .popRp p => Sys2Proof.Machine.execPopRp p s
  | .popPsw => Sys2Proof.Machine.execPopPsw s
  | .xthl => Sys2Proof.Machine.execXthl s
  | .sphl => Sys2Proof.Machine.execSphl s
  | .inPort port => Sys2Proof.Machine.execInPort port s
  | .outPort port => Sys2Proof.Machine.execOutPort port s
  | .ei => Sys2Proof.Machine.execEi s
  | .di => Sys2Proof.Machine.execDi s
  | .nop => Sys2Proof.Machine.execNop s
  | .hlt => Sys2Proof.Machine.execHlt s
  | .rim => Sys2Proof.Machine.execRim s
  | .sim => Sys2Proof.Machine.execSim s
  | .undefined08 => Sys2Proof.Machine.execUndefined08 s
  | .undefined10 => Sys2Proof.Machine.execUndefined10 s
  | .undefined18 => Sys2Proof.Machine.execUndefined18 s
  | .undefined28 => Sys2Proof.Machine.execUndefined28 s
  | .undefined38 => Sys2Proof.Machine.execUndefined38 s
  | .undefinedCB => Sys2Proof.Machine.execUndefinedCB s
  | .undefinedD9 => Sys2Proof.Machine.execUndefinedD9 s
  | .undefinedDD => Sys2Proof.Machine.execUndefinedDD s
  | .undefinedED => Sys2Proof.Machine.execUndefinedED s
  | .undefinedFD => Sys2Proof.Machine.execUndefinedFD s

end Sys2Proof.Machine
end

