-- ==== Sys2Proof/Machine/Interrupt.lean ====
section
/-! DEFINITION. The instruction boundary (60_exceptions.md R274 to R285): taking the environment's answer, which requests are
effective, which one is accepted, and the entries by source. -/

namespace Sys2Proof.Machine

open Config (IntSource)

/-- What the environment presents once its script is used up: no reset, no request and no event; the serial input and the
ports go on presenting what they did (entries 5, 37). -/
def Inputs.quiet (i : Inputs) : Inputs := { Inputs.idle with sid := i.sid, ports := i.ports }

/-- FF75 with an RST 7.5 event added: the event sets it, whatever the masks and IE are (60 R274, D15). -/
def Control.latch75 (c : Control) (event : Bool) : Control := { c with ff75 := c.ff75 || event }

/-- The environment's answer at this boundary (60 R274, D11): the next one of the script, or the quiet one. -/
def State.nextInputs (s : State) : Inputs :=
  match s.script with
  | [] => s.inputs.quiet
  | i :: _ => i

/-- The boundary begins: the environment's answer is taken, and an RST 7.5 event sets FF75 (60 R274). -/
def State.sample (s : State) : State :=
  ((s.withInputs s.nextInputs).withScript s.script.tail).withCtl (s.ctl.latch75 s.nextInputs.i75Event)

/-- `eff_TRAP`, `eff_75`, `eff_65`, `eff_55`, `eff_EXT` (60 R274). -/
def State.effective (s : State) : IntSource → Bool
  | .trap => s.inputs.trapReq
  | .rst75 => s.ctl.ff75 && s.ctl.ie && !s.ctl.m75
  | .rst65 => s.inputs.i65Req && s.ctl.ie && !s.ctl.m65
  | .rst55 => s.inputs.i55Req && s.ctl.ie && !s.ctl.m55
  | .external => s.inputs.extOp.isSome && s.ctl.ie

/-- The members of `cand` (60 R276): an effective source, and while `EI_shadow` is 1 TRAP only. -/
def State.candidate (s : State) (src : IntSource) : Bool :=
  s.effective src && (src == .trap || !s.ctl.eiShadow)

/-- The accepted source: the candidate that comes first in `INTERRUPT_PRIORITY` (60 R276, R277). -/
def State.accepted (s : State) : Option IntSource := s.params.priority.find? s.candidate

/-- The restart address of a source that generates its RST internally (60 R272, 20_memory.md R63); the external source has
none of its own. -/
def vectorOf : IntSource → Option Word
  | .trap => some 0x0024#16
  | .rst75 => some 0x003C#16
  | .rst65 => some 0x0034#16
  | .rst55 => some 0x002C#16
  | .external => none

/-- The restart address 8 * NNN of an inserted byte `11 NNN 111` (60 R279); none for any other byte. -/
def insertedVector (op : Byte) : Option Word :=
  if op &&& 0xC7#8 = 0xC7#8 then some (BitVec.setWidth 16 (op &&& 0x38#8)) else none

/-- The entry to RST 7.5 also resets FF75; the other entries do not (60 R278, R280). -/
def Control.served (c : Control) (src : IntSource) : Control :=
  { c with ff75 := if src = .rst75 then false else c.ff75 }

/-- `Entry(external)` (60 R279): an RST n byte enters at 8n, with PC not advanced; any other byte is refused (D16). -/
def State.enterInserted (s : State) (op : Byte) : Host.Outcome State Fault Refusal :=
  match insertedVector op with
  | some v => .next (s.enter v)
  | none => .refused (.insertedNotRst op)

/-- `Entry(src)` (60 R278, R279). -/
def State.entry (s : State) (src : IntSource) : Host.Outcome State Fault Refusal :=
  match vectorOf src, s.inputs.extOp with
  | some v, _ => .next ((s.withCtl (s.ctl.served src)).enter v)
  | none, some op => s.enterInserted op
  | none, none => .next s

/-- What happens in a step, as its boundary and its resets decide it (60 R276, 70 R310). -/
inductive Boundary
  /-- Reset is asserted, and no instruction or entry is cut short. -/
  | reset
  /-- The interrupt of this source is accepted. -/
  | enter (src : IntSource)
  /-- The processor is halted and no request is effective: it stays halted. -/
  | stayHalted
  /-- The next instruction is fetched and executed. -/
  | run
  /-- The interrupt of this source is accepted, and reset cuts its entry short. -/
  | resetInEntry (src : IntSource) (c : Cut)
  /-- The next instruction is fetched, and reset cuts it short. -/
  | resetInRun (c : Cut)
  deriving DecidableEq, Repr

/-- The same with a reset asserted after the boundary (70 R310: "at any time, including in the Halt state and inside an
instruction"): it cuts the entry or the instruction short; in the Halt state there is nothing to cut. -/
def Boundary.cutBy : Boundary → Option Cut → Boundary
  | b, none => b
  | .enter src, some c => .resetInEntry src c
  | .run, some c => .resetInRun c
  | .reset, some _ => .reset
  | .stayHalted, some _ => .reset
  | .resetInEntry src c, some _ => .resetInEntry src c
  | .resetInRun c, some _ => .resetInRun c

/-- Whether a step is a reset, at its boundary or after it. -/
def Boundary.isReset : Boundary → Bool
  | .reset | .resetInEntry _ _ | .resetInRun _ => true
  | .enter _ | .stayHalted | .run => false

/-- The choice at a boundary whose inputs have been taken (60 R276): reset first, then an accepted interrupt, then the Halt
state. -/
def State.choice (s : State) : Boundary :=
  if s.inputs.reset then .reset
  else
    match s.accepted with
    | some src => .enter src
    | none => if s.ctl.halted then .stayHalted else .run

/-- What happens in a step whose inputs have been taken: the choice at its boundary, and a reset after it. -/
def State.boundary (s : State) : Boundary := s.choice.cutBy s.inputs.cut

/-- The instruction begins: a late RST 7.5 event sets FF75, `EI_shadow` ends (60 R285: when this instruction completes,
unless it is EI, which sets it again), and the model's counter of draws advances. -/
def State.begin (s : State) : State :=
  (s.withCtl { s.ctl.latch75 s.inputs.run75Event with eiShadow := false }).withDraws (s.draws + 1)

end Sys2Proof.Machine
end

