-- ==== Sys2Proof/Machine/Fetch.lean ====
section
/-! DEFINITION. Instruction fetch (20_memory.md R50, R53, R57, R69; 30_encoding.md R95), and placing an instruction where it
is fetched. -/

namespace Sys2Proof.Machine

/-- The instruction at PC: its first byte at PC, its operand bytes at PC + 1 and PC + 2 mod 65536 (10_state.md R25, R26). A
byte that the instruction does not have is not used. -/
def State.instrAt (s : State) : Instr := instrOf (s.readByte s.pc) (s.readByte (s.pc + 1)) (s.readByte (s.pc + 2))

/-- A memory with three bytes placed at `a`, `a + 1`, `a + 2` mod 65536, from outside the machine. -/
def Memory.place3 (m : Memory) (a : Word) (b1 b2 b3 : Byte) : Memory :=
  Memory.store (Memory.store (Memory.store m a.toNat b1) (a + 1).toNat b2) (a + 2).toNat b3

/-- The platform's map with every range that leaves `a` absent taken out. -/
def present (rs : List Config.Region) (a : Word) : List Config.Region :=
  rs.filter (fun r => !(holds r a && r.kind == .absent))

/-- The script with its next answer made one that takes no interrupt and no reset. -/
def quietNext : List Inputs → List Inputs
  | [] => []
  | i :: is =>
    { i with
      reset := false
      cut := none
      trapReq := false
      i75Event := false
      i65Req := false
      i55Req := false
      extOp := none } :: is

/-- The state with three bytes placed at PC, and with all that would keep the next step from fetching them taken away: the
Halt state, an effective RST 7.5 request, a request or reset in the next answer of the script, and a range of the platform's
map that leaves one of the three addresses without memory. -/
def State.placeInstr (s : State) (b1 b2 b3 : Byte) : State :=
  (((s.withMem (Memory.place3 s.mem s.pc b1 b2 b3)).withScript (quietNext s.script)).withCtl
    { s.ctl with halted := false, ff75 := s.ctl.ff75 && !(s.ctl.ie && !s.ctl.m75) }).withParams
    { s.params with regions := present (present (present s.params.regions s.pc) (s.pc + 1)) (s.pc + 2) }

/-- The three bytes of an opcode-table word, placed. -/
def State.placeWord (s : State) (nbits w : Nat) : State :=
  match tableBytes nbits w with
  | [b1, b2, b3] => s.placeInstr b1 b2 b3
  | _ => s

end Sys2Proof.Machine
end

