-- ==== Sys2Proof/Machine/Writes.lean ====
section
/-! DEFINITION. What each instruction may write, over the whole set: general registers, SP, flags, control flip-flops. No
meaning reads these tables; a reset inside an instruction does (Machine/Abandon.lean), and the frame statement compares the
meanings with them. -/

namespace Sys2Proof.Machine

/-- The general registers of a pair (10 R23); SP is none. -/
def pairRegs : Pair → List Reg
  | .bc => [.b, .c]
  | .de => [.d, .e]
  | .hl => [.h, .l]
  | .sp => []

/-- The general registers an instruction writes (10_state.md R20 and the instruction rules). -/
def regsWritten : Instr → List Reg
  | .movRR rd _ | .movRM rd | .mviR rd _ | .inrR rd | .dcrR rd =>
    [rd]
  | .movMR _ | .mviM _ | .sta _ | .stax _ | .shld _ | .cmpR _ | .cmpM | .cpi _ | .inrM | .dcrM | .cmc
  | .stc | .jmp _ | .jnz _ | .jz _ | .jnc _ | .jc _ | .jpo _ | .jpe _ | .jp _ | .jm _ | .call _
  | .cnz _ | .cz _ | .cnc _ | .cc _ | .cpo _ | .cpe _ | .cp _ | .cm _ | .ret | .rnz | .rz | .rnc | .rc
  | .rpo | .rpe | .rp | .rm | .rst _ | .pchl | .pushRp _ | .pushPsw | .sphl | .outPort _ | .ei | .di
  | .nop | .hlt | .sim | .undefined08 | .undefined10 | .undefined18 | .undefined28 | .undefined38
  | .undefinedCB | .undefinedD9 | .undefinedDD | .undefinedED | .undefinedFD =>
    []
  | .lxi p _ | .inx p | .dcx p | .popRp p =>
    pairRegs p
  | .lda _ | .ldax _ | .addR _ | .addM | .adcR _ | .adcM | .subR _ | .subM | .sbbR _ | .sbbM | .anaR _
  | .anaM | .xraR _ | .xraM | .oraR _ | .oraM | .adi _ | .aci _ | .sui _ | .sbi _ | .ani _ | .xri _
  | .ori _ | .daa | .rlc | .rrc | .ral | .rar | .cma | .popPsw | .inPort _ | .rim =>
    [.a]
  | .lhld _ | .dad _ | .xthl =>
    [.h, .l]
  | .xchg =>
    [.d, .e, .h, .l]

/-- Whether an instruction may write SP (10 R24). -/
def spWritten : Instr → Bool
  | .movRR _ _ | .movRM _ | .movMR _ | .mviR _ _ | .mviM _ | .lda _ | .sta _ | .ldax _ | .stax _
  | .lhld _ | .shld _ | .xchg | .addR _ | .addM | .adcR _ | .adcM | .subR _ | .subM | .sbbR _ | .sbbM
  | .anaR _ | .anaM | .xraR _ | .xraM | .oraR _ | .oraM | .cmpR _ | .cmpM | .adi _ | .aci _ | .sui _
  | .sbi _ | .ani _ | .xri _ | .ori _ | .cpi _ | .inrR _ | .inrM | .dcrR _ | .dcrM | .dad _ | .daa
  | .rlc | .rrc | .ral | .rar | .cma | .cmc | .stc | .jmp _ | .jnz _ | .jz _ | .jnc _ | .jc _ | .jpo _
  | .jpe _ | .jp _ | .jm _ | .pchl | .xthl | .inPort _ | .outPort _ | .ei | .di | .nop | .hlt | .rim
  | .sim | .undefined08 | .undefined10 | .undefined18 | .undefined28 | .undefined38 | .undefinedCB
  | .undefinedD9 | .undefinedDD | .undefinedED | .undefinedFD =>
    false
  | .lxi p _ | .inx p | .dcx p =>
    p == .sp
  | .call _ | .cnz _ | .cz _ | .cnc _ | .cc _ | .cpo _ | .cpe _ | .cp _ | .cm _ | .ret | .rnz | .rz
  | .rnc | .rc | .rpo | .rpe | .rp | .rm | .rst _ | .pushRp _ | .pushPsw | .popRp _ | .popPsw | .sphl =>
    true

/-- Which flags an instruction writes (10 R31): `true` at a flag that it modifies, forces or loads. -/
def flagsWritten : Instr → Flags
  | .movRR _ _ | .movRM _ | .movMR _ | .mviR _ _ | .mviM _ | .lxi _ _ | .lda _ | .sta _ | .ldax _
  | .stax _ | .lhld _ | .shld _ | .xchg | .inx _ | .dcx _ | .cma | .jmp _ | .jnz _ | .jz _ | .jnc _
  | .jc _ | .jpo _ | .jpe _ | .jp _ | .jm _ | .call _ | .cnz _ | .cz _ | .cnc _ | .cc _ | .cpo _
  | .cpe _ | .cp _ | .cm _ | .ret | .rnz | .rz | .rnc | .rc | .rpo | .rpe | .rp | .rm | .rst _ | .pchl
  | .pushRp _ | .pushPsw | .popRp _ | .xthl | .sphl | .inPort _ | .outPort _ | .ei | .di | .nop | .hlt
  | .rim | .sim | .undefined08 | .undefined10 | .undefined18 | .undefined28 | .undefined38
  | .undefinedCB | .undefinedD9 | .undefinedDD | .undefinedED | .undefinedFD =>
    { s := false, z := false, ac := false, p := false, cy := false }
  | .addR _ | .addM | .adcR _ | .adcM | .subR _ | .subM | .sbbR _ | .sbbM | .anaR _ | .anaM | .xraR _
  | .xraM | .oraR _ | .oraM | .cmpR _ | .cmpM | .adi _ | .aci _ | .sui _ | .sbi _ | .ani _ | .xri _
  | .ori _ | .cpi _ | .daa | .popPsw =>
    { s := true, z := true, ac := true, p := true, cy := true }
  | .inrR _ | .inrM | .dcrR _ | .dcrM =>
    { s := true, z := true, ac := true, p := true, cy := false }
  | .dad _ | .rlc | .rrc | .ral | .rar | .cmc | .stc =>
    { s := false, z := false, ac := false, p := false, cy := true }

/-- Whether an instruction may write a control flip-flop (10 R32 to R35, R38, R42). -/
def ctlWritten : Instr → Bool
  | .movRR _ _ | .movRM _ | .movMR _ | .mviR _ _ | .mviM _ | .lxi _ _ | .lda _ | .sta _ | .ldax _
  | .stax _ | .lhld _ | .shld _ | .xchg | .addR _ | .addM | .adcR _ | .adcM | .subR _ | .subM
  | .sbbR _ | .sbbM | .anaR _ | .anaM | .xraR _ | .xraM | .oraR _ | .oraM | .cmpR _ | .cmpM | .adi _
  | .aci _ | .sui _ | .sbi _ | .ani _ | .xri _ | .ori _ | .cpi _ | .inrR _ | .inrM | .dcrR _ | .dcrM
  | .inx _ | .dcx _ | .dad _ | .daa | .rlc | .rrc | .ral | .rar | .cma | .cmc | .stc | .jmp _ | .jnz _
  | .jz _ | .jnc _ | .jc _ | .jpo _ | .jpe _ | .jp _ | .jm _ | .call _ | .cnz _ | .cz _ | .cnc _
  | .cc _ | .cpo _ | .cpe _ | .cp _ | .cm _ | .ret | .rnz | .rz | .rnc | .rc | .rpo | .rpe | .rp | .rm
  | .rst _ | .pchl | .pushRp _ | .pushPsw | .popRp _ | .popPsw | .xthl | .sphl | .inPort _
  | .outPort _ | .nop | .rim | .undefined08 | .undefined10 | .undefined18 | .undefined28
  | .undefined38 | .undefinedCB | .undefinedD9 | .undefinedDD | .undefinedED | .undefinedFD =>
    false
  | .ei | .di | .hlt | .sim =>
    true

end Sys2Proof.Machine
end

