-- ==== Sys2Proof/Machine/Abandon.lean ====
section
/-! DEFINITION. Reset inside an instruction or an interrupt entry (70_reset_and_hazards.md R310, R311): what is under way is
abandoned, and the reset event follows. "D1 gives no guarantee about partially performed memory writes of that instruction":
the accesses of 20_memory.md R57 are performed one after another (R66), so those before the cut have been completed, one
write may be under way, and none after it has begun. Where the cut lies, what the write under way leaves, and what is left in
the registers the instruction writes, is the environment's draw (entry 26). -/

namespace Sys2Proof.Machine

open Config (IntSource)

/-- The write under way when reset came: nothing yet, or the byte it has left at its address. -/
def State.applyTorn (s : State) : Option Access → Option Byte → State
  | some (.write a _), some v => s.writeByte a v
  | some (.write _ _), none => s
  | some (.read _), _ => s
  | some (.input _), _ => s
  | some (.output _ _), _ => s
  | none, _ => s

/-- What the platform keeps of a list of accesses cut short: those completed, and the write under way. -/
def State.applyCut (s : State) (l : List Access) (c : Cut) : State :=
  (s.applyAccesses (l.take c.done)).applyTorn l[c.done]? c.torn

/-- The registers `rs` from `new`, the others from `g`. -/
def Regs.replace (g new : Regs) (rs : List Reg) : Regs := rs.foldl (fun g r => g.set r (new.get r)) g

/-- The flags that `w` marks from `new`, the others from `f`. -/
def Flags.replace (f new w : Flags) : Flags :=
  { s := if w.s then new.s else f.s
    z := if w.z then new.z else f.z
    ac := if w.ac then new.ac else f.ac
    p := if w.p then new.p else f.p
    cy := if w.cy then new.cy else f.cy }

/-- What reset leaves of an instruction it abandons (70 R311): its accesses cut short, and in the registers, the flags and SP
that the instruction writes the draw of the cut. -/
def State.abandon (s : State) (i : Instr) (c : Cut) : State :=
  (((s.applyCut (s.accesses i).tail c).withRegs (s.regs.replace c.regs (regsWritten i))).withFlags
    (s.flags.replace c.flags (flagsWritten i))).withSp (if spWritten i && taken i s.flags then c.sp else s.sp)

/-- What reset leaves of an interrupt entry it abandons: the push of PC cut short, and the draw of the cut in SP. -/
def State.abandonEntry (s : State) (c : Cut) : State := (s.applyCut (s.pushAccesses s.pc) c).withSp c.sp

/-- Reset inside the instruction at PC (70 R310, R311). An instruction that the spec refuses is refused here too: what such a
first byte has done before the reset is as unknown as the rest of it (30_encoding.md R96). -/
def State.resetInRun (s : State) (c : Cut) : Host.Outcome State Fault Refusal :=
  match exec s.instrAt s with
  | .next _ => .next (s.abandon s.instrAt c).resetEvent
  | .fault f => .fault f
  | .refused r => .refused r

/-- Reset inside the entry to an interrupt (70 R310; 60 R278). An entry that is refused is refused here too. -/
def State.resetInEntry (s : State) (src : IntSource) (c : Cut) : Host.Outcome State Fault Refusal :=
  match s.entry src with
  | .next _ => .next (s.abandonEntry c).resetEvent
  | .fault f => .fault f
  | .refused r => .refused r

end Sys2Proof.Machine
end

