-- ==== Sys2Proof/Machine/Step.lean ====
section
/-! DEFINITION. One step of the machine: one instruction boundary with what follows it (60_exceptions.md R275, R276). -/

namespace Sys2Proof.Machine

/-- The environment's answer is taken; then reset, or the entry of the accepted interrupt, or the Halt state goes on, or the
instruction at PC executes; a reset after the boundary abandons the entry or the instruction (70_reset_and_hazards.md R310,
R311). -/
def step (s : State) : Host.Outcome State Fault Refusal :=
  match s.sample.boundary with
  | .reset => .next s.sample.resetEvent
  | .enter src => s.sample.entry src
  | .stayHalted => .next s.sample
  | .run => exec s.sample.begin.instrAt s.sample.begin
  | .resetInEntry src c => s.sample.resetInEntry src c
  | .resetInRun c => s.sample.begin.resetInRun c

/-- `s` with the instruction of an opcode-table word stored at PC, where the next step fetches it. -/
def State.withFetchWord (s : State) (nbits w : Nat) : State := s.placeWord nbits w

end Sys2Proof.Machine
end

