-- ==== Sys2Proof/Machine/Timing.lean ====
section
/-! DEFINITION. The timing table of 70_reset_and_hazards.md R330: machine cycles and T-states. Informative: no meaning and no
step reads it (R330, 92 D25), and State has no clock (60 R288). The ten first bytes without an instruction have no timing. -/

namespace Sys2Proof.Machine

/-- The kinds of machine cycle (R330): fetch with 4 or with 6 T-states, memory read, memory write, input, output, bus idle. -/
inductive Cycle
  | f | s | r | w | i | o | b
  deriving DecidableEq, Repr

/-- The machine cycles of an instruction; `go` says whether a conditional one transfers control (R330, "cycles"). -/
def cycles (i : Instr) (go : Bool) : List Cycle :=
  match i with
  | .movRR _ _ | .xchg | .addR _ | .adcR _ | .subR _ | .sbbR _ | .anaR _ | .xraR _ | .oraR _ | .cmpR _
  | .inrR _ | .dcrR _ | .daa | .rlc | .rrc | .ral | .rar | .cma | .cmc | .stc | .ei | .di | .nop
  | .rim | .sim =>
    [.f]
  | .movRM _ | .mviR _ _ | .ldax _ | .addM | .adcM | .subM | .sbbM | .anaM | .xraM | .oraM | .cmpM
  | .adi _ | .aci _ | .sui _ | .sbi _ | .ani _ | .xri _ | .ori _ | .cpi _ =>
    [.f, .r]
  | .movMR _ | .stax _ =>
    [.f, .w]
  | .mviM _ | .inrM | .dcrM =>
    [.f, .r, .w]
  | .lxi _ _ | .jmp _ | .ret | .popRp _ | .popPsw =>
    [.f, .r, .r]
  | .lda _ =>
    [.f, .r, .r, .r]
  | .sta _ =>
    [.f, .r, .r, .w]
  | .lhld _ =>
    [.f, .r, .r, .r, .r]
  | .shld _ | .xthl =>
    [.f, .r, .r, .w, .w]
  | .inx _ | .dcx _ | .pchl | .sphl =>
    [.s]
  | .dad _ =>
    [.f, .b, .b]
  | .jnz _ | .jz _ | .jnc _ | .jc _ | .jpo _ | .jpe _ | .jp _ | .jm _ =>
    if go then [.f, .r, .r] else [.f, .r]
  | .call _ =>
    [.s, .r, .r, .w, .w]
  | .cnz _ | .cz _ | .cnc _ | .cc _ | .cpo _ | .cpe _ | .cp _ | .cm _ =>
    if go then [.s, .r, .r, .w, .w] else [.s, .r]
  | .rnz | .rz | .rnc | .rc | .rpo | .rpe | .rp | .rm =>
    if go then [.s, .r, .r] else [.s]
  | .rst _ | .pushRp _ | .pushPsw =>
    [.s, .w, .w]
  | .inPort _ =>
    [.f, .r, .i]
  | .outPort _ =>
    [.f, .r, .o]
  | .hlt =>
    [.f, .b]
  | .undefined08 | .undefined10 | .undefined18 | .undefined28 | .undefined38 | .undefinedCB
  | .undefinedD9 | .undefinedDD | .undefinedED | .undefinedFD =>
    []

/-- The T-states of an instruction as R330 prints them, HLT as the least it can take ("5 or more"). -/
def tStates (i : Instr) (go : Bool) : Nat :=
  match i with
  | .movRR _ _ | .xchg | .addR _ | .adcR _ | .subR _ | .sbbR _ | .anaR _ | .xraR _ | .oraR _ | .cmpR _
  | .inrR _ | .dcrR _ | .daa | .rlc | .rrc | .ral | .rar | .cma | .cmc | .stc | .ei | .di | .nop
  | .rim | .sim =>
    4
  | .movRM _ | .movMR _ | .mviR _ _ | .ldax _ | .stax _ | .addM | .adcM | .subM | .sbbM | .anaM | .xraM
  | .oraM | .cmpM | .adi _ | .aci _ | .sui _ | .sbi _ | .ani _ | .xri _ | .ori _ | .cpi _ =>
    7
  | .mviM _ | .lxi _ _ | .inrM | .dcrM | .dad _ | .jmp _ | .ret | .popRp _ | .popPsw | .inPort _
  | .outPort _ =>
    10
  | .lda _ | .sta _ =>
    13
  | .lhld _ | .shld _ | .xthl =>
    16
  | .inx _ | .dcx _ | .pchl | .sphl =>
    6
  | .jnz _ | .jz _ | .jnc _ | .jc _ | .jpo _ | .jpe _ | .jp _ | .jm _ =>
    if go then 10 else 7
  | .call _ =>
    18
  | .cnz _ | .cz _ | .cnc _ | .cc _ | .cpo _ | .cpe _ | .cp _ | .cm _ =>
    if go then 18 else 9
  | .rnz | .rz | .rnc | .rc | .rpo | .rpe | .rp | .rm =>
    if go then 12 else 6
  | .rst _ | .pushRp _ | .pushPsw =>
    12
  | .hlt =>
    5
  | .undefined08 | .undefined10 | .undefined18 | .undefined28 | .undefined38 | .undefinedCB
  | .undefinedD9 | .undefinedDD | .undefinedED | .undefinedFD =>
    0

/-- The T-states of one machine cycle (R332). -/
def Cycle.tStates : Cycle → Nat
  | .f => 4
  | .s => 6
  | .r | .w | .i | .o | .b => 3

/-- The kind of machine cycle that makes an access after the opcode fetch (R330). -/
def Access.cycle : Access → Cycle
  | .read _ => .r
  | .write _ _ => .w
  | .input _ => .i
  | .output _ _ => .o

end Sys2Proof.Machine
end

