-- ==== Sys2Proof/Safety.lean ====
section
/-! DEFINITION. What counts as a safe run of the machine, in the terms statements use: the invariant of its states, what an
instruction leaves unchanged (its frame), and the shapes of results. -/

namespace Sys2Proof.Machine

/-- What every state of a run satisfies: memory in canonical form; `EI_shadow` only where the model has it, and only with IE
set and the processor running (60_exceptions.md R285); and parameters of the form 00_scope.md R6 gives them. -/
def State.Inv (s : State) : Prop :=
  Memory.wf s.mem ∧
  (s.ctl.eiShadow = true → s.ctl.ie = true ∧ s.ctl.halted = false ∧ s.params.eiDelay ≠ .none) ∧
  s.params.wf

/-! Frames. -/

/-- Every register but those of `rs` is unchanged. -/
def KeepsRegs (rs : List Reg) (s t : State) : Prop := ∀ r, r ∉ rs → t.readReg r = s.readReg r

/-- Every byte of memory but those at the addresses `as` reads as before. -/
def KeepsBytes (as : List Word) (s t : State) : Prop := ∀ a, a ∉ as → t.readByte a = s.readByte a

/-- The environment's answers, the model's counter and the parameters are unchanged. -/
def KeepsWorld (s t : State) : Prop :=
  t.inputs = s.inputs ∧ t.script = s.script ∧ t.draws = s.draws ∧ t.params = s.params

/-- The control flip-flops and the outputs are unchanged. -/
def KeepsControl (s t : State) : Prop := t.ctl = s.ctl ∧ t.outTrace = s.outTrace ∧ t.sodTrace = s.sodTrace

/-- The common frame: only the registers `rs`, the bytes at `as`, and what the statement names of SP, PC and the flags
change. -/
def Keeps (rs : List Reg) (as : List Word) (s t : State) : Prop :=
  KeepsRegs rs s t ∧ KeepsBytes as s t ∧ KeepsControl s t ∧ KeepsWorld s t

/-! Shapes of results: each says that `exec` answers a next state, and what that state is. -/

/-- The instruction, of `n` bytes, loads `v` into the register `r` and changes nothing else but PC. -/
def LoadsReg (i : Instr) (s : State) (r : Reg) (v : Byte) (n : Nat) : Prop :=
  ∃ t, exec i s = .next t ∧ t.readReg r = v ∧ t.flags = s.flags ∧ t.sp = s.sp ∧ t.pc = s.pc + BitVec.ofNat 16 n ∧
    Keeps [r] [] s t

/-- The instruction, of `n` bytes, stores `v` at `a` where there is RAM, and changes nothing else but PC. -/
def StoresByte (i : Instr) (s : State) (a : Word) (v : Byte) (n : Nat) : Prop :=
  ∃ t, exec i s = .next t ∧ (s.regionAt a = .ram → t.readByte a = v) ∧
    (s.regionAt a ≠ .ram → t.readByte a = s.readByte a) ∧ t.flags = s.flags ∧ t.sp = s.sp ∧
    t.pc = s.pc + BitVec.ofNat 16 n ∧ Keeps [] [a] s t

/-- The instruction, of `n` bytes, leaves the accumulator with `v` and the flags as `F` says, and changes nothing else but
PC. -/
def SetsAccumulator (i : Instr) (s : State) (v : Byte) (F : Flags → Prop) (n : Nat) : Prop :=
  ∃ t, exec i s = .next t ∧ t.regs.a = v ∧ F t.flags ∧ t.sp = s.sp ∧ t.pc = s.pc + BitVec.ofNat 16 n ∧
    Keeps [.a] [] s t

/-- The instruction goes to `target` and changes nothing but PC. -/
def JumpsTo (i : Instr) (s : State) (target : Word) : Prop :=
  ∃ t, exec i s = .next t ∧ t.pc = target ∧ t.flags = s.flags ∧ t.sp = s.sp ∧ Keeps [] [] s t

/-- The 16-bit value `w` lies on the stack of `t`, pushed from `s`: high-order byte at SP - 1, low-order byte at SP - 2 where
there is RAM; SP is lower by 2 (20_memory.md R71). -/
def Pushed (s t : State) (w : Word) : Prop :=
  (s.regionAt (s.sp - 1) = .ram → t.readByte (s.sp - 1) = high w) ∧
  (s.regionAt (s.sp - 2) = .ram → t.readByte (s.sp - 2) = low w) ∧
  (s.regionAt (s.sp - 1) ≠ .ram → t.readByte (s.sp - 1) = s.readByte (s.sp - 1)) ∧
  (s.regionAt (s.sp - 2) ≠ .ram → t.readByte (s.sp - 2) = s.readByte (s.sp - 2)) ∧
  t.sp = s.sp - 2

/-- The instruction pushes `ret`, goes to `target`, and changes nothing else. -/
def CallsTo (i : Instr) (s : State) (target ret : Word) : Prop :=
  ∃ t, exec i s = .next t ∧ t.pc = target ∧ Pushed s t ret ∧ t.flags = s.flags ∧ Keeps [] [s.sp - 1, s.sp - 2] s t

/-- The instruction goes to the 16-bit value at SP (low-order byte at SP, high-order byte at SP + 1), raises SP by 2, and
changes nothing else. -/
def Returns (i : Instr) (s : State) : Prop :=
  ∃ t, exec i s = .next t ∧ t.pc = join (s.readByte (s.sp + 1)) (s.readByte s.sp) ∧ t.sp = s.sp + 2 ∧
    t.flags = s.flags ∧ Keeps [] [] s t

/-! Reset (70_reset_and_hazards.md R310, R311). -/

/-- What every reset leaves in the control flip-flops and PC, and that it makes no output of its own. -/
def AfterReset (s t : State) : Prop :=
  t.pc = s.params.resetPc ∧
  t.ctl =
    { ie := false, m75 := true, m65 := true, m55 := true, ff75 := false, sod := false, halted := false,
      eiShadow := false } ∧
  t.sodTrace = s.sodTrace ∧ t.params = s.params

/-- Of the accesses `l`, begun in `b`, `t` holds in memory and in the output events what the cut `c` leaves: the first
`c.done` performed; the next, if it is a write, either not begun or leaving the drawn byte where there is RAM; none after
it. -/
def CutShort (b : State) (l : List Access) (c : Cut) (t : State) : Prop :=
  (∀ a, (∀ v, l[c.done]? ≠ some (.write a v)) → t.readByte a = (b.applyAccesses (l.take c.done)).readByte a) ∧
  (∀ a v, l[c.done]? = some (.write a v) →
    (c.torn = none ∨ b.regionAt a ≠ .ram → t.readByte a = (b.applyAccesses (l.take c.done)).readByte a) ∧
    (∀ w, c.torn = some w → b.regionAt a = .ram → t.readByte a = w)) ∧
  t.outTrace = (b.applyAccesses (l.take c.done)).outTrace

/-! The flags of results, in the words of 10_state.md R28 and R29. -/

/-- S, Z and P say what they should of the result byte `v` (10 R28): bit 7; zero; an even number of 1 bits. -/
def FlagsOf (v : Byte) (f : Flags) : Prop :=
  f.s = v.getLsbD 7 ∧ (f.z = true ↔ v = 0) ∧
  (f.p = true ↔ Even (Finset.univ.filter fun k : Fin 8 => v.getLsbD k = true).card)

/-- The flags after the addition `x + y + c` (10 R29): carry out of bit 7, carry out of bit 3. -/
def FlagsOfSum (x y : Byte) (c : Bool) (f : Flags) : Prop :=
  FlagsOf (x + y + BitVec.ofNat 8 c.toNat) f ∧ (f.cy = true ↔ 256 ≤ x.toNat + y.toNat + c.toNat) ∧
  (f.ac = true ↔ 16 ≤ x.toNat % 16 + y.toNat % 16 + c.toNat)

/-- The flags after the subtraction `x - y - c` (41_arithmetic.md R148): CY is the borrow; AC is the parameter `zn` where the
operand's low nibble and the borrow-in are both 0, and elsewhere says that the low nibble needs no borrow. -/
def FlagsOfDifference (zn : Bool) (x y : Byte) (c : Bool) (f : Flags) : Prop :=
  FlagsOf (x - y - BitVec.ofNat 8 c.toNat) f ∧ (f.cy = true ↔ x.toNat < y.toNat + c.toNat) ∧
  (y.toNat % 16 + c.toNat = 0 → f.ac = zn) ∧
  (y.toNat % 16 + c.toNat ≠ 0 → (f.ac = true ↔ y.toNat % 16 + c.toNat ≤ x.toNat % 16))

/-- The instruction, of `n` bytes, compares the accumulator with `y` as unsigned bytes and changes nothing but the flags and
PC (42 R180). -/
def Compares (i : Instr) (s : State) (y : Byte) (n : Nat) : Prop :=
  ∃ t, exec i s = .next t ∧ (t.flags.cy = true ↔ s.regs.a < y) ∧ (t.flags.z = true ↔ s.regs.a = y) ∧
    FlagsOfDifference s.params.acSubZeroNibble s.regs.a y false t.flags ∧ t.sp = s.sp ∧
    t.pc = s.pc + BitVec.ofNat 16 n ∧ Keeps [] [] s t

/-- The flags after a logic instruction with result `v` (42_logical.md R170). -/
def FlagsOfLogic (ac : Bool) (v : Byte) (f : Flags) : Prop := FlagsOf v f ∧ f.ac = ac ∧ f.cy = false

/-! Instructions by condition (30_encoding.md R86). -/

/-- The conditional jump of a condition. -/
def condJump : Cond → Word → Instr
  | .nz, a => .jnz a
  | .z, a => .jz a
  | .nc, a => .jnc a
  | .c, a => .jc a
  | .po, a => .jpo a
  | .pe, a => .jpe a
  | .p, a => .jp a
  | .m, a => .jm a

/-- The conditional call of a condition. -/
def condCall : Cond → Word → Instr
  | .nz, a => .cnz a
  | .z, a => .cz a
  | .nc, a => .cnc a
  | .c, a => .cc a
  | .po, a => .cpo a
  | .pe, a => .cpe a
  | .p, a => .cp a
  | .m, a => .cm a

/-- The conditional return of a condition. -/
def condReturn : Cond → Instr
  | .nz => .rnz
  | .z => .rz
  | .nc => .rnc
  | .c => .rc
  | .po => .rpo
  | .pe => .rpe
  | .p => .rp
  | .m => .rm

/-- The ten first bytes without an instruction (30 R96), each with the name it decodes to. -/
def undefinedOpcodes : List (Byte × Instr) :=
  [(0x08#8, .undefined08), (0x10#8, .undefined10), (0x18#8, .undefined18), (0x28#8, .undefined28),
   (0x38#8, .undefined38), (0xCB#8, .undefinedCB), (0xD9#8, .undefinedD9), (0xDD#8, .undefinedDD),
   (0xED#8, .undefinedED), (0xFD#8, .undefinedFD)]

/-- The instruction is none of the ten undefined first bytes. -/
def isDefined (i : Instr) : Prop := ∀ x ∈ undefinedOpcodes, i ≠ x.2

end Sys2Proof.Machine
end

