-- ==== Sys2Proof/Certificates/Slice0/Obligations.lean ====
section
/-! DEFINITION. The statements for the provers. Each docstring names the rules of spec/ it formalises; one that rests on a
decision of 92_eei_decisions.md or on a choice of the model says so. OBLIGATIONS.json lists them. -/

open Sys2Proof Sys2Proof.Machine
open Sys2Proof.Config (IntSource EiDelay)

/-! Encoding (30_encoding.md). -/

/-- Decoding the bytes of a well-formed instruction, whatever follows them, gives the instruction back, with every operand
at every value (30 R80 to R95). -/
def Obligations.DecodeOfEncodeIsTheInstruction : Prop :=
  ∀ (i : Instr) (rest : List Byte), i.WellFormed → decode (encode i ++ rest) = .instr i rest

/-- Each byte string has one meaning: what is decoded is well-formed, and encoding it gives the bytes back (30 R80 to R95). -/
def Obligations.EncodeOfDecodeIsTheBytes : Prop :=
  ∀ (bs rest : List Byte) (i : Instr), decode bs = .instr i rest → i.WellFormed ∧ encode i ++ rest = bs

/-- The length of an instruction from its first byte (30 R98), and that it does not depend on a condition: an untaken
conditional jump or call moves PC over three bytes. -/
def Obligations.LengthFollowsFromFirstByte : Prop :=
  (∀ op b2 b3 : Byte, (∀ x ∈ undefinedOpcodes, op ≠ x.1) →
    (encode (instrOf op b2 b3)).length =
      if op ∈ [0x01#8, 0x11#8, 0x21#8, 0x31#8, 0x22#8, 0x2A#8, 0x32#8, 0x3A#8, 0xC3#8, 0xC2#8, 0xCA#8, 0xD2#8, 0xDA#8,
        0xE2#8, 0xEA#8, 0xF2#8, 0xFA#8, 0xCD#8, 0xC4#8, 0xCC#8, 0xD4#8, 0xDC#8, 0xE4#8, 0xEC#8, 0xF4#8, 0xFC#8] then 3
      else if op ∈ [0x06#8, 0x0E#8, 0x16#8, 0x1E#8, 0x26#8, 0x2E#8, 0x36#8, 0x3E#8, 0xC6#8, 0xCE#8, 0xD6#8, 0xDE#8,
        0xE6#8, 0xEE#8, 0xF6#8, 0xFE#8, 0xD3#8, 0xDB#8] then 2
      else 1) ∧
  (∀ (s : State) (cc : Cond) (a : Word), s.flags.cond cc = false →
    (∃ t, exec (condJump cc a) s = .next t ∧ t.pc = s.pc + 3) ∧
    (∃ t, exec (condCall cc a) s = .next t ∧ t.pc = s.pc + 3))

/-- A few words of the spec's own examples decode to the instructions they stand for. -/
def Obligations.SampleWordsDecode : Prop :=
  decode [0x41#8] = .instr (.movRR .b .c) [] ∧ decode [0x06#8, 0x92#8] = .instr (.mviR .b 0x92#8) [] ∧
  decode [0x3A#8, 0x50#8, 0x20#8] = .instr (.lda 0x2050#16) [] ∧ decode [0x76#8] = .instr .hlt [] ∧
  decode [0xCD#8, 0x50#8, 0x20#8] = .instr (.call 0x2050#16) [] ∧ decode [0xF5#8] = .instr .pushPsw [] ∧
  decode [0xEF#8] = .instr (.rst 5) [] ∧ decode [0x1E#8] = .truncated 0x1E#8

/-- The ten first bytes without an instruction are refused by name, by `exec` and by a step that reaches one, cut short by
reset or not (30 R96; 92 D6 is the spec's own decision; that a cut does not spare the refusal is entry 26). -/
def Obligations.UndefinedFirstBytesAreRefused : Prop :=
  ∀ x ∈ undefinedOpcodes,
    (∀ b2 b3 : Byte, instrOf x.1 b2 b3 = x.2) ∧
    (∀ s : State, exec x.2 s = .refused (.undefinedOpcode x.1)) ∧
    (∀ s : State, (s.sample.boundary = .run ∨ ∃ c, s.sample.boundary = .resetInRun c) →
      s.sample.begin.readByte s.pc = x.1 → step s = .refused (.undefinedOpcode x.1))

/-! Data transfer (40_data_transfer.md). -/

/-- MOV Rd,Rs; MOV Rd,M; MVI Rd,d8; LDA; LDAX load one register and change nothing else (40 R111, R112, R114, R117, R119). -/
def Obligations.RegisterLoadResults : Prop :=
  ∀ s : State,
    (∀ rd rs, LoadsReg (.movRR rd rs) s rd (s.readReg rs) 1) ∧
    (∀ rd, LoadsReg (.movRM rd) s rd (s.readByte (join s.regs.h s.regs.l)) 1) ∧
    (∀ rd v, LoadsReg (.mviR rd v) s rd v 2) ∧
    (∀ a, LoadsReg (.lda a) s .a (s.readByte a) 3) ∧
    LoadsReg (.ldax .bc) s .a (s.readByte (join s.regs.b s.regs.c)) 1 ∧
    LoadsReg (.ldax .de) s .a (s.readByte (join s.regs.d s.regs.e)) 1

/-- MOV M,Rs; MVI M,d8; STA; STAX store one byte and change nothing else (40 R113, R115, R118, R120). -/
def Obligations.StoreResults : Prop :=
  ∀ s : State,
    (∀ rs, StoresByte (.movMR rs) s (join s.regs.h s.regs.l) (s.readReg rs) 1) ∧
    (∀ v, StoresByte (.mviM v) s (join s.regs.h s.regs.l) v 2) ∧
    (∀ a, StoresByte (.sta a) s a s.regs.a 3) ∧
    StoresByte (.stax .bc) s (join s.regs.b s.regs.c) s.regs.a 1 ∧
    StoresByte (.stax .de) s (join s.regs.d s.regs.e) s.regs.a 1

/-- LXI rp,d16 loads the pair, high-order register first, or SP; XCHG exchanges H with D and L with E (40 R116, R123). -/
def Obligations.LxiAndXchgResults : Prop :=
  ∀ (s : State) (hi lo : Byte),
    (∀ x ∈ [(Pair.bc, Reg.b, Reg.c), (Pair.de, Reg.d, Reg.e), (Pair.hl, Reg.h, Reg.l)],
      ∃ t, exec (.lxi x.1 (join hi lo)) s = .next t ∧ t.readReg x.2.1 = hi ∧ t.readReg x.2.2 = lo ∧
        t.flags = s.flags ∧ t.sp = s.sp ∧ t.pc = s.pc + 3 ∧ Keeps [x.2.1, x.2.2] [] s t) ∧
    (∃ t, exec (.lxi .sp (join hi lo)) s = .next t ∧ t.sp = join hi lo ∧ t.flags = s.flags ∧ t.pc = s.pc + 3 ∧
      Keeps [] [] s t) ∧
    (∃ t, exec .xchg s = .next t ∧ t.regs.h = s.regs.d ∧ t.regs.d = s.regs.h ∧ t.regs.l = s.regs.e ∧
      t.regs.e = s.regs.l ∧ t.flags = s.flags ∧ t.sp = s.sp ∧ t.pc = s.pc + 1 ∧ Keeps [.h, .l, .d, .e] [] s t)

/-- LHLD loads L from `a` and H from `a + 1`, SHLD stores them there, the second address mod 65536 (40 R121, R122;
20 R52; the wrap is decision D1 of the spec). -/
def Obligations.LhldAndShldResults : Prop :=
  ∀ (s : State) (a : Word),
    (∃ t, exec (.lhld a) s = .next t ∧ t.regs.l = s.readByte a ∧ t.regs.h = s.readByte (a + 1) ∧ t.flags = s.flags ∧
      t.sp = s.sp ∧ t.pc = s.pc + 3 ∧ Keeps [.h, .l] [] s t) ∧
    (∃ t, exec (.shld a) s = .next t ∧ (s.regionAt a = .ram → t.readByte a = s.regs.l) ∧
      (s.regionAt (a + 1) = .ram → t.readByte (a + 1) = s.regs.h) ∧
      (s.regionAt a ≠ .ram → t.readByte a = s.readByte a) ∧
      (s.regionAt (a + 1) ≠ .ram → t.readByte (a + 1) = s.readByte (a + 1)) ∧
      t.flags = s.flags ∧ t.sp = s.sp ∧ t.pc = s.pc + 3 ∧ Keeps [] [a, a + 1] s t)

/-! Arithmetic (41_arithmetic.md). -/

/-- ADD, ADC, ADI, ACI: the sum mod 256 in A, all five flags from the sum (41 R141 to R147; 10 R28, R29). -/
def Obligations.AdditionResults : Prop :=
  ∀ s : State,
    (∀ rs, SetsAccumulator (.addR rs) s (s.regs.a + s.readReg rs) (FlagsOfSum s.regs.a (s.readReg rs) false) 1) ∧
    SetsAccumulator .addM s (s.regs.a + s.readByte s.hl) (FlagsOfSum s.regs.a (s.readByte s.hl) false) 1 ∧
    (∀ v, SetsAccumulator (.adi v) s (s.regs.a + v) (FlagsOfSum s.regs.a v false) 2) ∧
    (∀ rs, SetsAccumulator (.adcR rs) s (s.regs.a + s.readReg rs + BitVec.ofNat 8 s.flags.cy.toNat)
      (FlagsOfSum s.regs.a (s.readReg rs) s.flags.cy) 1) ∧
    SetsAccumulator .adcM s (s.regs.a + s.readByte s.hl + BitVec.ofNat 8 s.flags.cy.toNat)
      (FlagsOfSum s.regs.a (s.readByte s.hl) s.flags.cy) 1 ∧
    (∀ v, SetsAccumulator (.aci v) s (s.regs.a + v + BitVec.ofNat 8 s.flags.cy.toNat)
      (FlagsOfSum s.regs.a v s.flags.cy) 2)

/-- SUB, SBB, SUI, SBI: the difference mod 256 in A, all five flags from the difference, AC for every setting of
AC_SUB_ZERO_NIBBLE (41 R148 to R154; 10 R28, R29). -/
def Obligations.SubtractionResults : Prop :=
  ∀ s : State,
    (∀ rs, SetsAccumulator (.subR rs) s (s.regs.a - s.readReg rs)
      (FlagsOfDifference s.params.acSubZeroNibble s.regs.a (s.readReg rs) false) 1) ∧
    SetsAccumulator .subM s (s.regs.a - s.readByte s.hl)
      (FlagsOfDifference s.params.acSubZeroNibble s.regs.a (s.readByte s.hl) false) 1 ∧
    (∀ v, SetsAccumulator (.sui v) s (s.regs.a - v)
      (FlagsOfDifference s.params.acSubZeroNibble s.regs.a v false) 2) ∧
    (∀ rs, SetsAccumulator (.sbbR rs) s (s.regs.a - s.readReg rs - BitVec.ofNat 8 s.flags.cy.toNat)
      (FlagsOfDifference s.params.acSubZeroNibble s.regs.a (s.readReg rs) s.flags.cy) 1) ∧
    SetsAccumulator .sbbM s (s.regs.a - s.readByte s.hl - BitVec.ofNat 8 s.flags.cy.toNat)
      (FlagsOfDifference s.params.acSubZeroNibble s.regs.a (s.readByte s.hl) s.flags.cy) 1 ∧
    (∀ v, SetsAccumulator (.sbi v) s (s.regs.a - v - BitVec.ofNat 8 s.flags.cy.toNat)
      (FlagsOfDifference s.params.acSubZeroNibble s.regs.a v s.flags.cy) 2)

/-- CMP and CPI: A is kept; CY says A < operand, Z says A = operand, both as unsigned bytes; S, P, AC as of the difference
(42_logical.md R180 to R182). -/
def Obligations.CompareResults : Prop :=
  ∀ s : State,
    (∀ rs, Compares (.cmpR rs) s (s.readReg rs) 1) ∧ Compares .cmpM s (s.readByte s.hl) 1 ∧
    (∀ v, Compares (.cpi v) s v 2)

/-- ANA, XRA, ORA and ANI, XRI, ORI: the bitwise result in A, S, Z, P from it, CY reset, AC set by AND and reset by the
others (42 R171 to R179). -/
def Obligations.LogicResults : Prop :=
  ∀ s : State,
    (∀ rs, SetsAccumulator (.anaR rs) s (s.regs.a &&& s.readReg rs)
      (FlagsOfLogic true (s.regs.a &&& s.readReg rs)) 1) ∧
    SetsAccumulator .anaM s (s.regs.a &&& s.readByte s.hl) (FlagsOfLogic true (s.regs.a &&& s.readByte s.hl)) 1 ∧
    (∀ v, SetsAccumulator (.ani v) s (s.regs.a &&& v) (FlagsOfLogic true (s.regs.a &&& v)) 2) ∧
    (∀ rs, SetsAccumulator (.xraR rs) s (s.regs.a ^^^ s.readReg rs)
      (FlagsOfLogic false (s.regs.a ^^^ s.readReg rs)) 1) ∧
    SetsAccumulator .xraM s (s.regs.a ^^^ s.readByte s.hl) (FlagsOfLogic false (s.regs.a ^^^ s.readByte s.hl)) 1 ∧
    (∀ v, SetsAccumulator (.xri v) s (s.regs.a ^^^ v) (FlagsOfLogic false (s.regs.a ^^^ v)) 2) ∧
    (∀ rs, SetsAccumulator (.oraR rs) s (s.regs.a ||| s.readReg rs)
      (FlagsOfLogic false (s.regs.a ||| s.readReg rs)) 1) ∧
    SetsAccumulator .oraM s (s.regs.a ||| s.readByte s.hl) (FlagsOfLogic false (s.regs.a ||| s.readByte s.hl)) 1 ∧
    (∀ v, SetsAccumulator (.ori v) s (s.regs.a ||| v) (FlagsOfLogic false (s.regs.a ||| v)) 2)

/-- INR Rd and DCR Rd: the register up or down by one mod 256; S, Z, P from the result, AC, CY kept (41 R155, R157). -/
def Obligations.RegisterStepResults : Prop :=
  ∀ (s : State) (rd : Reg),
    (∃ t, exec (.inrR rd) s = .next t ∧ t.readReg rd = s.readReg rd + 1 ∧ FlagsOf (s.readReg rd + 1) t.flags ∧
      (t.flags.ac = true ↔ (s.readReg rd).toNat % 16 = 15) ∧ t.flags.cy = s.flags.cy ∧ t.sp = s.sp ∧
      t.pc = s.pc + 1 ∧ Keeps [rd] [] s t) ∧
    (∃ t, exec (.dcrR rd) s = .next t ∧ t.readReg rd = s.readReg rd - 1 ∧ FlagsOf (s.readReg rd - 1) t.flags ∧
      (t.flags.ac = true ↔ (s.readReg rd).toNat % 16 ≠ 0) ∧ t.flags.cy = s.flags.cy ∧ t.sp = s.sp ∧
      t.pc = s.pc + 1 ∧ Keeps [rd] [] s t)

/-- INR M and DCR M: the byte at HL up or down by one mod 256 where there is RAM; the flags as of a register's (41 R156,
R158). -/
def Obligations.MemoryStepResults : Prop :=
  ∀ s : State,
    (∃ t, exec .inrM s = .next t ∧ (s.regionAt s.hl = .ram → t.readByte s.hl = s.readByte s.hl + 1) ∧
      (s.regionAt s.hl ≠ .ram → t.readByte s.hl = s.readByte s.hl) ∧ FlagsOf (s.readByte s.hl + 1) t.flags ∧
      (t.flags.ac = true ↔ (s.readByte s.hl).toNat % 16 = 15) ∧ t.flags.cy = s.flags.cy ∧ t.sp = s.sp ∧
      t.pc = s.pc + 1 ∧ Keeps [] [s.hl] s t) ∧
    (∃ t, exec .dcrM s = .next t ∧ (s.regionAt s.hl = .ram → t.readByte s.hl = s.readByte s.hl - 1) ∧
      (s.regionAt s.hl ≠ .ram → t.readByte s.hl = s.readByte s.hl) ∧ FlagsOf (s.readByte s.hl - 1) t.flags ∧
      (t.flags.ac = true ↔ (s.readByte s.hl).toNat % 16 ≠ 0) ∧ t.flags.cy = s.flags.cy ∧ t.sp = s.sp ∧
      t.pc = s.pc + 1 ∧ Keeps [] [s.hl] s t)

/-- INX and DCX: the pair or SP up or down by one mod 65536, no flag changed (41 R159, R160). -/
def Obligations.PairStepResults : Prop :=
  ∀ (s : State) (p : Pair),
    (∃ t, exec (.inx p) s = .next t ∧ (t.readPair p).toNat = ((s.readPair p).toNat + 1) % 65536 ∧ t.flags = s.flags ∧
      (p ≠ .sp → t.sp = s.sp) ∧ t.pc = s.pc + 1 ∧ Keeps (pairRegs p) [] s t) ∧
    (∃ t, exec (.dcx p) s = .next t ∧ (t.readPair p).toNat = ((s.readPair p).toNat + 65535) % 65536 ∧
      t.flags = s.flags ∧ (p ≠ .sp → t.sp = s.sp) ∧ t.pc = s.pc + 1 ∧ Keeps (pairRegs p) [] s t)

/-- DAD: the 16-bit sum in HL, CY set exactly when it exceeds FFFFH, the other flags kept (41 R161; that CY is reset
otherwise is decision D26 of the spec). -/
def Obligations.DadResults : Prop :=
  ∀ (s : State) (p : Pair), ∃ t, exec (.dad p) s = .next t ∧
    t.hl.toNat = (s.hl.toNat + (s.readPair p).toNat) % 65536 ∧
    (t.flags.cy = true ↔ 65536 ≤ s.hl.toNat + (s.readPair p).toNat) ∧ t.flags.s = s.flags.s ∧ t.flags.z = s.flags.z ∧
    t.flags.ac = s.flags.ac ∧ t.flags.p = s.flags.p ∧ t.sp = s.sp ∧ t.pc = s.pc + 1 ∧ Keeps [.h, .l] [] s t

/-- DAA gives the A, AC and CY of the one-shot reading: both corrections decided from the accumulator and flags at entry, one
addition of 00H, 06H, 60H or 66H (41 R162, 92 D4: the spec's own choice, which it derives to be the same); S, Z, P from
the new A. -/
def Obligations.DaaIsTheSingleCorrection : Prop :=
  ∀ s : State, ∃ t, exec .daa s = .next t ∧
    (let lo : Prop := 9 < s.regs.a.toNat % 16 ∨ s.flags.ac = true
     let hi : Prop := 9 < s.regs.a.toNat / 16 ∨ s.flags.cy = true ∨ (s.regs.a.toNat / 16 = 9 ∧ 9 < s.regs.a.toNat % 16)
     (lo → hi → t.regs.a = s.regs.a + 0x66#8) ∧ (lo → ¬hi → t.regs.a = s.regs.a + 0x06#8) ∧
     (¬lo → hi → t.regs.a = s.regs.a + 0x60#8) ∧ (¬lo → ¬hi → t.regs.a = s.regs.a) ∧
     (t.flags.cy = true ↔ hi) ∧ (t.flags.ac = true ↔ lo ∧ 9 < s.regs.a.toNat % 16)) ∧
    FlagsOf t.regs.a t.flags ∧ t.sp = s.sp ∧ t.pc = s.pc + 1 ∧ Keeps [.a] [] s t

/-- DAA after an addition of two packed-BCD bytes, with or without a carry in, gives the packed-BCD sum, and CY is its
hundred (41 R162, R163; 92 D4). -/
def Obligations.DaaCorrectsPackedBcdAddition : Prop :=
  ∀ (s t u : State) (rs : Reg) (i : Instr) (c : Nat) (x1 x0 y1 y0 : Nat),
    x1 < 10 → x0 < 10 → y1 < 10 → y0 < 10 → s.regs.a.toNat = 16 * x1 + x0 → (s.readReg rs).toNat = 16 * y1 + y0 →
    ((i = .addR rs ∧ c = 0) ∨ (i = .adcR rs ∧ c = s.flags.cy.toNat)) →
    exec i s = .next t → exec .daa t = .next u →
    (∃ d1 d0, d1 < 10 ∧ d0 < 10 ∧ u.regs.a.toNat = 16 * d1 + d0 ∧
      100 * u.flags.cy.toNat + 10 * d1 + d0 = (10 * x1 + x0) + (10 * y1 + y0) + c)

/-- ADI then ACI add two 16-bit numbers byte by byte, SUI then SBI subtract them: the chain through CY gives the 16-bit
result and its carry or borrow (41 R146, R147, R153, R154, R163). -/
def Obligations.CarryChainsGiveSixteenBitArithmetic : Prop :=
  ∀ (s t u : State) (x1 y1 y0 : Byte),
    (exec (.adi y0) s = .next t → exec (.aci y1) (t.writeReg .a x1) = .next u →
      join u.regs.a t.regs.a = join x1 s.regs.a + join y1 y0 ∧
      (u.flags.cy = true ↔ 65536 ≤ (join x1 s.regs.a).toNat + (join y1 y0).toNat)) ∧
    (exec (.sui y0) s = .next t → exec (.sbi y1) (t.writeReg .a x1) = .next u →
      join u.regs.a t.regs.a = join x1 s.regs.a - join y1 y0 ∧
      (u.flags.cy = true ↔ (join x1 s.regs.a).toNat < (join y1 y0).toNat))

/-! Rotates, complement, carry (42_logical.md). -/

/-- The rotates: each bit moves one place, the bit that leaves goes to CY and, through CY or not, the other end is filled;
S, Z, AC, P are kept (42 R188 to R191). -/
def Obligations.RotateResults : Prop :=
  ∀ s : State,
    ∀ x ∈ [(Instr.rlc, true, s.regs.a.getLsbD 7), (.ral, true, s.flags.cy), (.rrc, false, s.regs.a.getLsbD 0),
        (.rar, false, s.flags.cy)],
      ∃ t, exec x.1 s = .next t ∧
        (x.2.1 = true → t.regs.a.getLsbD 0 = x.2.2 ∧ t.flags.cy = s.regs.a.getLsbD 7 ∧
          ∀ k < 7, t.regs.a.getLsbD (k + 1) = s.regs.a.getLsbD k) ∧
        (x.2.1 = false → t.regs.a.getLsbD 7 = x.2.2 ∧ t.flags.cy = s.regs.a.getLsbD 0 ∧
          ∀ k < 7, t.regs.a.getLsbD k = s.regs.a.getLsbD (k + 1)) ∧
        t.flags.s = s.flags.s ∧ t.flags.z = s.flags.z ∧ t.flags.ac = s.flags.ac ∧ t.flags.p = s.flags.p ∧
        t.sp = s.sp ∧ t.pc = s.pc + 1 ∧ Keeps [.a] [] s t

/-- RAR undoes RAL and RAL undoes RAR, on A and CY; RRC undoes RLC and RLC undoes RRC, on A (42 R188 to R191). -/
def Obligations.RotatesUndoEachOther : Prop :=
  ∀ (s t u : State),
    (exec .ral s = .next t → exec .rar t = .next u → u.regs = s.regs ∧ u.flags = s.flags) ∧
    (exec .rar s = .next t → exec .ral t = .next u → u.regs = s.regs ∧ u.flags = s.flags) ∧
    (exec .rlc s = .next t → exec .rrc t = .next u → u.regs = s.regs) ∧
    (exec .rrc s = .next t → exec .rlc t = .next u → u.regs = s.regs)

/-- CMA complements A and no flag; CMC complements CY; STC sets CY; nothing else changes (42 R192 to R194). -/
def Obligations.ComplementAndCarryResults : Prop :=
  ∀ s : State,
    LoadsReg .cma s .a (0xFF#8 - s.regs.a) 1 ∧
    (∀ x ∈ [(Instr.cmc, !s.flags.cy), (.stc, true)],
      ∃ t, exec x.1 s = .next t ∧ t.flags.cy = x.2 ∧ t.flags.s = s.flags.s ∧ t.flags.z = s.flags.z ∧
        t.flags.ac = s.flags.ac ∧ t.flags.p = s.flags.p ∧ t.sp = s.sp ∧ t.pc = s.pc + 1 ∧ Keeps [] [] s t)

/-! Branches (43_branch.md). -/

/-- The truth of the eight conditions on the flags, by their code CCC in op[5:3] of the conditional jumps, calls and returns;
AC is tested by none (43 R201). -/
def Obligations.ConditionsTestTheirFlag : Prop :=
  ∀ f : Flags,
    (f.cond .nz = true ↔ f.z = false) ∧ (f.cond .z = true ↔ f.z = true) ∧ (f.cond .nc = true ↔ f.cy = false) ∧
    (f.cond .c = true ↔ f.cy = true) ∧ (f.cond .po = true ↔ f.p = false) ∧ (f.cond .pe = true ↔ f.p = true) ∧
    (f.cond .p = true ↔ f.s = false) ∧ (f.cond .m = true ↔ f.s = true) ∧
    (∀ (ac : Bool) (cc : Cond), { f with ac := ac }.cond cc = f.cond cc) ∧
    (∀ (code : Nat) (cc : Cond), [Cond.nz, .z, .nc, .c, .po, .pe, .p, .m][code]? = some cc → ∀ b2 b3 : Byte,
      instrOf (BitVec.ofNat 8 (0xC2 + 8 * code)) b2 b3 = condJump cc (join b3 b2) ∧
      instrOf (BitVec.ofNat 8 (0xC4 + 8 * code)) b2 b3 = condCall cc (join b3 b2) ∧
      instrOf (BitVec.ofNat 8 (0xC0 + 8 * code)) b2 b3 = condReturn cc)

/-- JMP, PCHL and the eight conditional jumps go to their target, or over three bytes where the condition is false, and
change nothing else (43 R202 to R210, R230). -/
def Obligations.JumpResults : Prop :=
  ∀ (s : State) (a : Word),
    JumpsTo (.jmp a) s a ∧ JumpsTo .pchl s (join s.regs.h s.regs.l) ∧
    (∀ cc, JumpsTo (condJump cc a) s (if s.flags.cond cc then a else s.pc + 3))

/-- CALL and RST push the address of the next instruction and go to their target; a conditional call does so where its
condition holds and else moves over three bytes with SP and memory untouched (43 R211 to R219, R229). -/
def Obligations.CallResults : Prop :=
  ∀ (s : State) (a : Word),
    CallsTo (.call a) s a (s.pc + 3) ∧
    (∀ n < 8, CallsTo (.rst n) s (BitVec.ofNat 16 (8 * n)) (s.pc + 1)) ∧
    (∀ cc, s.flags.cond cc = true → CallsTo (condCall cc a) s a (s.pc + 3)) ∧
    (∀ cc, s.flags.cond cc = false → JumpsTo (condCall cc a) s (s.pc + 3))

/-- RET goes to the word at SP and raises SP by 2; a conditional return does so where its condition holds and else moves
over one byte with SP untouched (43 R220 to R228). -/
def Obligations.ReturnResults : Prop :=
  ∀ s : State,
    Returns .ret s ∧ (∀ cc, s.flags.cond cc = true → Returns (condReturn cc) s) ∧
    (∀ cc, s.flags.cond cc = false → JumpsTo (condReturn cc) s (s.pc + 1))

/-- A RET right after a CALL or a RST, on a stack in RAM, comes back to the instruction after it with SP, the registers and
the flags as they were (43 R211, R220, R229, R231). -/
def Obligations.ReturnUndoesCall : Prop :=
  ∀ (s t u : State) (i : Instr) (n : Nat), s.regionAt (s.sp - 1) = .ram → s.regionAt (s.sp - 2) = .ram →
    ((∃ a, i = .call a ∧ n = 3) ∨ (∃ k, i = .rst k ∧ n = 1)) → exec i s = .next t → exec .ret t = .next u →
    u.pc = s.pc + BitVec.ofNat 16 n ∧ u.sp = s.sp ∧ u.regs = s.regs ∧ u.flags = s.flags ∧ u.ctl = s.ctl

/-! Stack, I/O and control (44_stack_io_control.md). -/

/-- PUSH of a pair stores the high-order register at SP - 1 and the low-order one at SP - 2 and lowers SP by 2 (44 R241). -/
def Obligations.PushPairResults : Prop :=
  ∀ (s : State), ∀ x ∈ [(Pair.bc, Reg.b, Reg.c), (Pair.de, Reg.d, Reg.e), (Pair.hl, Reg.h, Reg.l)],
    ∃ t, exec (.pushRp x.1) s = .next t ∧ Pushed s t (join (s.readReg x.2.1) (s.readReg x.2.2)) ∧
      t.flags = s.flags ∧ t.pc = s.pc + 1 ∧ Keeps [] [s.sp - 1, s.sp - 2] s t

/-- PUSH PSW stores A at SP - 1 and at SP - 2 a byte whose bits 7, 6, 4, 2, 0 are S, Z, AC, P, CY (44 R242, 10 R30); its
other three bits are free, or the parameter's if it fixes them. -/
def Obligations.PushPswResults : Prop :=
  ∀ s : State, ∃ t f, exec .pushPsw s = .next t ∧ Pushed s t (join s.regs.a f) ∧
    f.getLsbD 7 = s.flags.s ∧ f.getLsbD 6 = s.flags.z ∧ f.getLsbD 4 = s.flags.ac ∧ f.getLsbD 2 = s.flags.p ∧
    f.getLsbD 0 = s.flags.cy ∧
    (∀ u, s.params.flagUnused = some u →
      f.getLsbD 5 = u.getLsbD 2 ∧ f.getLsbD 3 = u.getLsbD 1 ∧ f.getLsbD 1 = u.getLsbD 0) ∧
    t.flags = s.flags ∧ t.pc = s.pc + 1 ∧ Keeps [] [s.sp - 1, s.sp - 2] s t

/-- POP loads the low-order register from SP and the high-order one from SP + 1 and raises SP by 2; POP PSW loads A and the
five flags, bits 5, 3, 1 of the popped byte having no effect (44 R243, R244). -/
def Obligations.PopResults : Prop :=
  ∀ s : State,
    (∀ x ∈ [(Pair.bc, Reg.b, Reg.c), (Pair.de, Reg.d, Reg.e), (Pair.hl, Reg.h, Reg.l)],
      ∃ t, exec (.popRp x.1) s = .next t ∧ t.readReg x.2.2 = s.readByte s.sp ∧
        t.readReg x.2.1 = s.readByte (s.sp + 1) ∧ t.sp = s.sp + 2 ∧ t.flags = s.flags ∧ t.pc = s.pc + 1 ∧
        Keeps [x.2.1, x.2.2] [] s t) ∧
    (∃ t, exec .popPsw s = .next t ∧ t.regs.a = s.readByte (s.sp + 1) ∧
      t.flags.s = (s.readByte s.sp).getLsbD 7 ∧ t.flags.z = (s.readByte s.sp).getLsbD 6 ∧
      t.flags.ac = (s.readByte s.sp).getLsbD 4 ∧ t.flags.p = (s.readByte s.sp).getLsbD 2 ∧
      t.flags.cy = (s.readByte s.sp).getLsbD 0 ∧ t.sp = s.sp + 2 ∧ t.pc = s.pc + 1 ∧ Keeps [.a] [] s t)

/-- A pair, or A and the flags, pushed on a stack in RAM and popped again are what they were, and so is SP, whatever the
unused bits of the flag byte are and whatever instruction runs in between that keeps the two bytes and SP (44 R241 to
R244). -/
def Obligations.PopUndoesPush : Prop :=
  ∀ (s t m u : State), s.regionAt (s.sp - 1) = .ram → s.regionAt (s.sp - 2) = .ram →
    m.sp = t.sp → m.readByte (s.sp - 1) = t.readByte (s.sp - 1) → m.readByte (s.sp - 2) = t.readByte (s.sp - 2) →
    (exec .pushPsw s = .next t → exec .popPsw m = .next u →
      u.regs.a = s.regs.a ∧ u.flags = s.flags ∧ u.sp = s.sp) ∧
    (∀ p, p.stacked = true → exec (.pushRp p) s = .next t → exec (.popRp p) m = .next u →
      u.readPair p = s.readPair p ∧ u.sp = s.sp)

/-- XTHL exchanges L with the byte at SP and H with the byte at SP + 1, SP kept; SPHL copies HL to SP (44 R245, R246). -/
def Obligations.XthlAndSphlResults : Prop :=
  ∀ s : State,
    (∃ t, exec .xthl s = .next t ∧ t.regs.l = s.readByte s.sp ∧ t.regs.h = s.readByte (s.sp + 1) ∧
      (s.regionAt s.sp = .ram → t.readByte s.sp = s.regs.l) ∧
      (s.regionAt (s.sp + 1) = .ram → t.readByte (s.sp + 1) = s.regs.h) ∧
      (s.regionAt s.sp ≠ .ram → t.readByte s.sp = s.readByte s.sp) ∧
      (s.regionAt (s.sp + 1) ≠ .ram → t.readByte (s.sp + 1) = s.readByte (s.sp + 1)) ∧
      t.sp = s.sp ∧ t.flags = s.flags ∧ t.pc = s.pc + 1 ∧ Keeps [.h, .l] [s.sp, s.sp + 1] s t) ∧
    (∃ t, exec .sphl s = .next t ∧ t.sp = join s.regs.h s.regs.l ∧ t.flags = s.flags ∧ t.pc = s.pc + 1 ∧
      Keeps [] [] s t)

/-- IN loads A with the byte its port presents and changes nothing else; OUT makes one event (port, A) after the earlier ones
and changes nothing else (44 R250, R251; 20 R60, R61). What a port presents is the model's own choice (entry 7): the first
pair that the environment's answer lists for it counts, and a port it does not list presents a free value. -/
def Obligations.InAndOutResults : Prop :=
  ∀ (s : State) (port : Byte),
    (∃ v, (∀ l r w, s.inputs.ports = l ++ (port, w) :: r → (∀ x ∈ l, x.1 ≠ port) → v = w) ∧
      LoadsReg (.inPort port) s .a v 2) ∧
    (∃ t, exec (.outPort port) s = .next t ∧ t.outTrace = s.outTrace ++ [(port, s.regs.a)] ∧
      t.sodTrace = s.sodTrace ∧ t.ctl = s.ctl ∧ t.flags = s.flags ∧ t.sp = s.sp ∧ t.pc = s.pc + 2 ∧
      KeepsRegs [] s t ∧ KeepsBytes [] s t ∧ KeepsWorld s t)

/-- EI sets IE at once and DI resets it; EI_shadow after EI is 0 under EI_DELAY = none and 1 under one_instruction, and
under either it is a free bit; no other flip-flop and nothing else changes (44 R255, R256; 60 R285). -/
def Obligations.EiAndDiResults : Prop :=
  ∀ s : State,
    (∃ t sh, exec .ei s = .next t ∧ t.ctl = { s.ctl with ie := true, eiShadow := sh } ∧
      (s.params.eiDelay = .none → sh = false) ∧ (s.params.eiDelay = .oneInstruction → sh = true) ∧
      t.flags = s.flags ∧ t.sp = s.sp ∧ t.pc = s.pc + 1 ∧ t.outTrace = s.outTrace ∧ t.sodTrace = s.sodTrace ∧
      KeepsRegs [] s t ∧ KeepsBytes [] s t ∧ KeepsWorld s t) ∧
    (∃ t, exec .di s = .next t ∧ t.ctl = { s.ctl with ie := false } ∧ t.flags = s.flags ∧ t.sp = s.sp ∧
      t.pc = s.pc + 1 ∧ t.outTrace = s.outTrace ∧ t.sodTrace = s.sodTrace ∧
      KeepsRegs [] s t ∧ KeepsBytes [] s t ∧ KeepsWorld s t)

/-- NOP moves PC over one byte and does nothing else; HLT also enters the Halt state (44 R260, R262; that PC moves over the
HLT is decision D23 of the spec). -/
def Obligations.NopAndHltResults : Prop :=
  ∀ s : State,
    JumpsTo .nop s (s.pc + 1) ∧
    (∃ t, exec .hlt s = .next t ∧ t.ctl = { s.ctl with halted := true } ∧ t.flags = s.flags ∧ t.sp = s.sp ∧
      t.pc = s.pc + 1 ∧ t.outTrace = s.outTrace ∧ t.sodTrace = s.sodTrace ∧
      KeepsRegs [] s t ∧ KeepsBytes [] s t ∧ KeepsWorld s t)

/-- RIM loads A, under the layout of 10 R45 (the spec's default, from general knowledge), with SID, the pending bits of 7.5,
6.5, 5.5, IE and the three masks, from D7 to D0, and changes nothing else (44 R263). -/
def Obligations.RimResults : Prop :=
  ∀ s : State, s.params.rimLayout = Config.RimLayout.spec →
    ∃ v, LoadsReg .rim s .a v 1 ∧ v.getLsbD 7 = s.inputs.sid ∧ v.getLsbD 6 = s.ctl.ff75 ∧
      v.getLsbD 5 = s.inputs.run65 ∧ v.getLsbD 4 = s.inputs.run55 ∧ v.getLsbD 3 = s.ctl.ie ∧
      v.getLsbD 2 = s.ctl.m75 ∧ v.getLsbD 1 = s.ctl.m65 ∧ v.getLsbD 0 = s.ctl.m55

/-- Under every layout RIM completes, loads A and changes nothing else, and each of the eight named bits that the layout
places stands in A where it places it (44 R263, 00 R6). -/
def Obligations.RimFollowsItsLayout : Prop :=
  ∀ s : State, ∃ v, LoadsReg .rim s .a v 1 ∧
    ∀ k b, s.params.rimLayout.toList[k]? = some b → v.getLsbD (7 - k) = s.rimBit b

/-- SIM acts on the accumulator image of 10 R44 (whose layout the spec recovers from its source's list and examples): the
masks take D2, D1, D0 if D3 is 1, FF75 is reset if D4 is 1, SOD takes D7 if D6 is 1; D5 has no effect, and A, IE and
everything else are kept (44 R264). That A is kept, that SOD is kept where D6 is 0 and that D5 has no effect are decision D7
of the spec (entry 24). The SOD values latched are recorded in order (the record is the model's own, entry 32). -/
def Obligations.SimResults : Prop :=
  ∀ s : State, ∃ t, exec .sim s = .next t ∧
    (s.regs.a.getLsbD 3 = true → t.ctl.m75 = s.regs.a.getLsbD 2 ∧ t.ctl.m65 = s.regs.a.getLsbD 1 ∧
      t.ctl.m55 = s.regs.a.getLsbD 0) ∧
    (s.regs.a.getLsbD 3 = false → t.ctl.m75 = s.ctl.m75 ∧ t.ctl.m65 = s.ctl.m65 ∧ t.ctl.m55 = s.ctl.m55) ∧
    (s.regs.a.getLsbD 4 = true → t.ctl.ff75 = false) ∧ (s.regs.a.getLsbD 4 = false → t.ctl.ff75 = s.ctl.ff75) ∧
    (s.regs.a.getLsbD 6 = true → t.ctl.sod = s.regs.a.getLsbD 7 ∧ t.sodTrace = s.sodTrace ++ [s.regs.a.getLsbD 7]) ∧
    (s.regs.a.getLsbD 6 = false → t.ctl.sod = s.ctl.sod ∧ t.sodTrace = s.sodTrace) ∧
    t.ctl.ie = s.ctl.ie ∧ t.ctl.halted = s.ctl.halted ∧ t.ctl.eiShadow = s.ctl.eiShadow ∧ t.flags = s.flags ∧
    t.sp = s.sp ∧ t.pc = s.pc + 1 ∧ t.outTrace = s.outTrace ∧ KeepsRegs [] s t ∧ KeepsBytes [] s t ∧ KeepsWorld s t

/-! The machine: steps, interrupts, reset (60_exceptions.md, 70_reset_and_hazards.md). -/

/-- A step at a boundary where nothing intervenes runs the instruction that the bytes at PC decode to (30 R95; 60 R275, R276).
Around `exec` the step takes the environment's answer and begins the instruction: an RST 7.5 event sets FF75 (60 R274, D15),
EI_shadow ends (60 R285); nothing else changes. The model's own choices here: the answers are a list whose next one is taken
(entry 5), an event may come after the boundary (`run75Event`, entry 6), and a counter of draws advances (entry 9). -/
def Obligations.StepRunsTheDecodedInstruction : Prop :=
  ∀ (s : State) (i : Instr) (rest : List Byte),
    s.sample.boundary = .run →
    decode [s.sample.begin.readByte s.pc, s.sample.begin.readByte (s.pc + 1), s.sample.begin.readByte (s.pc + 2)] =
      .instr i rest →
    i.WellFormed ∧ step s = exec i s.sample.begin ∧
    s.sample.begin =
      { s with
        inputs := s.nextInputs
        script := s.script.tail
        ctl :=
          { s.ctl with
            ff75 := s.ctl.ff75 || s.nextInputs.i75Event || s.nextInputs.run75Event
            eiShadow := false }
        draws := s.draws + 1 }

/-- The Halt state (10 R38): HLT sets it; while it lasts no instruction is run, and a step without an effective request or
reset changes nothing but the environment's answer and FF75; an interrupt or reset ends it, and nothing else does. That an
RST 7.5 event sets FF75 meanwhile (10 R34, D15) and that the Halt state goes on from boundary to boundary (60 R276, R292,
D19, entry 36) are decisions of the spec. -/
def Obligations.HaltedUntilInterruptOrReset : Prop :=
  (∀ s : State, ∃ t, exec .hlt s = .next t ∧ t.ctl.halted = true) ∧
  (∀ s : State, s.ctl.halted = true → s.sample.boundary ≠ .run ∧ ∀ c, s.sample.boundary ≠ .resetInRun c) ∧
  (∀ s : State, s.ctl.halted = true → s.nextInputs.reset = false → s.nextInputs.cut = none →
    (∀ src, s.sample.effective src = false) →
    ∃ t, step s = .next t ∧ t.ctl = { s.ctl with ff75 := s.ctl.ff75 || s.nextInputs.i75Event } ∧ t.pc = s.pc ∧
      t.sp = s.sp ∧ t.regs = s.regs ∧ t.flags = s.flags ∧ t.mem = s.mem ∧ t.outTrace = s.outTrace ∧
      t.sodTrace = s.sodTrace ∧ t.draws = s.draws ∧ t.params = s.params) ∧
  (∀ s t : State, s.ctl.halted = true → step s = .next t →
    (t.ctl.halted = false ↔ s.sample.boundary.isReset = true ∨ ∃ src, s.sample.boundary = .enter src))

/-- A step that accepts TRAP, RST 7.5, RST 6.5 or RST 5.5 enters it: halted, IE and EI_shadow become 0, FF75 becomes 0 for
RST 7.5 only, PC is pushed and becomes the source's restart address, and nothing else changes (60 R272, R278, R280; what
is pushed, the reset of FF75 and the reset of IE by TRAP are decisions D13, D15 and D17 of the spec). An entry that reset
cuts short is in ResetEventResults. -/
def Obligations.InternalInterruptEntry : Prop :=
  ∀ (s : State), ∀ x ∈ [(IntSource.trap, 0x0024#16), (.rst75, 0x003C#16), (.rst65, 0x0034#16), (.rst55, 0x002C#16)],
    s.nextInputs.reset = false → s.nextInputs.cut = none → s.sample.accepted = some x.1 →
    ∃ t, step s = .next t ∧ t.pc = x.2 ∧ Pushed s.sample t s.pc ∧
      t.ctl =
        { s.ctl with
          halted := false
          ie := false
          eiShadow := false
          ff75 := if x.1 = .rst75 then false else s.ctl.ff75 || s.nextInputs.i75Event } ∧
      t.regs = s.regs ∧ t.flags = s.flags ∧ KeepsBytes [s.sp - 1, s.sp - 2] s t ∧ t.outTrace = s.outTrace ∧
      t.sodTrace = s.sodTrace ∧ t.draws = s.draws ∧ t.params = s.params

/-- A step that accepts the external request with an RST n byte enters at 8 * n with PC pushed and not advanced; with any
other byte it is refused, cut short by reset or not (60 R279, R280; 92 D13, D16 are the spec's own decisions; that a cut does not
spare the refusal is entry 26). An entry with an RST byte that reset cuts short is in ResetEventResults. -/
def Obligations.ExternalInterruptEntry : Prop :=
  ∀ (s : State) (op : Byte), s.nextInputs.reset = false → s.sample.accepted = some .external →
    s.nextInputs.extOp = some op →
    (∀ n < 8, op = BitVec.ofNat 8 (0xC7 + 8 * n) → s.nextInputs.cut = none →
      ∃ t, step s = .next t ∧ t.pc = BitVec.ofNat 16 (8 * n) ∧ Pushed s.sample t s.pc ∧
        t.ctl =
          { s.ctl with
            halted := false
            ie := false
            eiShadow := false
            ff75 := s.ctl.ff75 || s.nextInputs.i75Event } ∧
        t.regs = s.regs ∧ t.flags = s.flags ∧ KeepsBytes [s.sp - 1, s.sp - 2] s t ∧ t.outTrace = s.outTrace ∧
        t.sodTrace = s.sodTrace ∧ t.draws = s.draws ∧ t.params = s.params) ∧
    ((∀ n < 8, op ≠ BitVec.ofNat 8 (0xC7 + 8 * n)) → step s = .refused (.insertedNotRst op))

/-- What is accepted at a boundary was requested and let through: RST 7.5, 6.5, 5.5 need IE = 1 and their mask 0, the
external request needs IE = 1, and while EI_shadow is 1 only TRAP is accepted (60 R273, R274, R276). -/
def Obligations.AcceptedInterruptsAreEnabled : Prop :=
  ∀ (s : State) (src : IntSource), s.accepted = some src →
    (src = .trap → s.inputs.trapReq = true) ∧
    (src = .rst75 → s.ctl.ff75 = true ∧ s.ctl.ie = true ∧ s.ctl.m75 = false) ∧
    (src = .rst65 → s.inputs.i65Req = true ∧ s.ctl.ie = true ∧ s.ctl.m65 = false) ∧
    (src = .rst55 → s.inputs.i55Req = true ∧ s.ctl.ie = true ∧ s.ctl.m55 = false) ∧
    (src = .external → (∃ op, s.inputs.extOp = some op) ∧ s.ctl.ie = true) ∧
    (s.ctl.eiShadow = true → src = .trap)

/-- An effective request that EI_shadow does not hold back is never declined: a step without reset at its boundary then
enters an interrupt, an effective one with none before it in the order of priority, and runs no instruction; a later reset
cuts that entry short (60 R276, R277; D10, D12 are the spec's own decisions; the cut is entry 26). -/
def Obligations.EffectiveRequestsAreTaken : Prop :=
  ∀ (s : State) (src : IntSource), s.params.wf → s.nextInputs.reset = false → s.sample.effective src = true →
    (s.ctl.eiShadow = false ∨ src = .trap) →
    ∃ best, s.sample.effective best = true ∧ s.params.priority.idxOf best ≤ s.params.priority.idxOf src ∧
      (s.nextInputs.cut = none → step s = s.sample.entry best) ∧
      (∀ c, s.nextInputs.cut = some c → step s = s.sample.resetInEntry best c)

/-- TRAP cannot be disabled: whatever IE, the masks and EI_shadow are, halted or not, a TRAP request at a boundary is
entered at 0024H where TRAP comes first in the order of priority, as it does by the spec's default; only a reset cuts the
entry short (60 R272, R277, R278, R284; 70 R310). What is pushed and that entry resets IE are the spec's own decisions D13
and D17 (entries 19, 20); that a later reset makes the step `resetInEntry` is the model's own choice of
form (entry 26). -/
def Obligations.TrapCannotBeDisabled : Prop :=
  ∀ (s : State), s.nextInputs.reset = false → s.nextInputs.trapReq = true → s.params.priority.head? = some .trap →
    (s.nextInputs.cut = none →
      ∃ t, step s = .next t ∧ t.pc = 0x0024#16 ∧ Pushed s.sample t s.pc ∧ t.ctl.ie = false ∧ t.ctl.halted = false) ∧
    (∀ c, s.nextInputs.cut = some c → s.sample.boundary = .resetInEntry .trap c)

/-- The reset event takes effect whatever the machine was doing (70 R310, R311): IE, halted, FF75, SOD and EI_shadow become
0, the masks 1, PC becomes RESET_PC (all but IE and halted are decision D20 of the spec). At a boundary or in the Halt state
the registers, SP, the flags and memory keep what they hold. Inside an instruction or an interrupt entry what is under way is
abandoned: of its accesses those before the cut have been performed, a write under way leaves what the environment's draw
says, none after it has begun, and only registers, flags and SP that it writes may change. The form of the cut is the model's
own (entry 26), and so is that the record of SOD values gains nothing (entry 32). -/
def Obligations.ResetEventResults : Prop :=
  ∀ s : State,
    (s.nextInputs.reset = true ∨ (s.ctl.halted = true ∧ s.sample.accepted = none ∧ s.nextInputs.cut ≠ none) →
      ∃ t, step s = .next t ∧ AfterReset s t ∧ t.regs = s.regs ∧ t.sp = s.sp ∧ t.flags = s.flags ∧ t.mem = s.mem ∧
        t.outTrace = s.outTrace ∧ t.draws = s.draws) ∧
    (∀ c i, i = s.sample.begin.instrAt → s.nextInputs.reset = false → s.nextInputs.cut = some c →
      s.sample.accepted = none → s.ctl.halted = false → isDefined i →
      ∃ t, step s = .next t ∧ AfterReset s t ∧ CutShort s.sample.begin (s.sample.begin.accesses i).tail c t ∧
        KeepsRegs (regsWritten i) s t ∧ (spWritten i = false → t.sp = s.sp) ∧
        ((flagsWritten i).s = false → t.flags.s = s.flags.s) ∧ ((flagsWritten i).z = false → t.flags.z = s.flags.z) ∧
        ((flagsWritten i).ac = false → t.flags.ac = s.flags.ac) ∧
        ((flagsWritten i).p = false → t.flags.p = s.flags.p) ∧
        ((flagsWritten i).cy = false → t.flags.cy = s.flags.cy)) ∧
    (∀ c src, s.nextInputs.reset = false → s.nextInputs.cut = some c → s.sample.accepted = some src →
      (src = .external → ∃ n < 8, s.nextInputs.extOp = some (BitVec.ofNat 8 (0xC7 + 8 * n))) →
      ∃ t, step s = .next t ∧ AfterReset s t ∧ CutShort s.sample (s.sample.pushAccesses s.pc) c t ∧ t.regs = s.regs ∧
        t.flags = s.flags)

/-- The values after reset that the spec gives (10 R40; all but IE and halted are decision D20 of the spec), and its default
parameters (00 R6). -/
def Obligations.ResetStateValues : Prop :=
  State.reset.ctl.ie = false ∧ State.reset.ctl.halted = false ∧ State.reset.pc = 0x0000#16 ∧
  State.reset.ctl.m75 = true ∧ State.reset.ctl.m65 = true ∧ State.reset.ctl.m55 = true ∧
  State.reset.ctl.ff75 = false ∧ State.reset.ctl.sod = false ∧ State.reset.ctl.eiShadow = false ∧
  State.reset.params.resetPc = 0x0000#16 ∧ State.reset.params.acSubZeroNibble = false ∧
  State.reset.params.eiDelay = .either ∧ State.reset.params.flagUnused = none ∧
  State.reset.params.rimLayout = Config.RimLayout.spec ∧
  State.reset.params.priority = [.trap, .rst75, .rst65, .rst55, .external] ∧
  (∀ a, State.reset.regionAt a = .ram)

/-! The machine as a whole. -/

/-- Every step keeps the invariant: memory in canonical form, EI_shadow only with IE set, the processor running and an
EI_DELAY that has it, and well-formed parameters (60 R285; 00 R6; the memory form is the model's own, entry 3). -/
def Obligations.StepKeepsTheInvariant : Prop :=
  ∀ s t : State, s.Inv → step s = .next t → t.Inv

/-- The invariant holds right after reset. -/
def Obligations.InvariantHoldsAtReset : Prop := State.reset.Inv

/-- A meaning touches memory and ports only as the accesses of the table of 20 R57 say (20 R57, R66; the table as a definition
is the model's own, entry 27). Writes and outputs: every byte read after it and the output events are those that the list of
its accesses, applied one by one in their order to the state before, leaves. Reads: with any other memory whose bytes at the
addresses that the list reads are the same, it does the same but for memory. Inputs: with any other answer of the environment
that presents the same at the ports that the list inputs, and for RIM on the lines that it reads, it does the same. -/
def Obligations.MeaningsFollowTheBusTable : Prop :=
  ∀ (i : Instr) (s t : State), exec i s = .next t →
    (∀ a, t.readByte a = (s.applyAccesses (s.accesses i)).readByte a) ∧
    t.outTrace = (s.applyAccesses (s.accesses i)).outTrace ∧
    (∀ m, (∀ a, .read a ∈ s.accesses i → (s.withMem m).readByte a = s.readByte a) →
      ∃ u, exec i (s.withMem m) = .next u ∧ u.withMem t.mem = t) ∧
    (∀ x, (∀ port, .input port ∈ s.accesses i → (s.withInputs x).portIn port = s.portIn port) →
      (i = .rim → x.sid = s.inputs.sid ∧ x.run65 = s.inputs.run65 ∧ x.run55 = s.inputs.run55) →
      exec i (s.withInputs x) = .next (t.withInputs x))

/-- The machine cycles of the timing table are those of the accesses: for every defined instruction, taken or not, the
cycles after the fetch, idle ones left out, are one read, write, input or output for each access of the table of 20 R57 in
its order; and but for HLT its T-states are 4 or 6 for the fetch and 3 for each further cycle (70 R330, R332; 20 R57). -/
def Obligations.TimingTableMatchesTheBusTable : Prop :=
  ∀ (i : Instr) (s : State), isDefined i →
    (∃ x l, cycles i (taken i s.flags) = x :: l ∧ (x = .f ∨ x = .s) ∧
      l.filter (fun y => y != .b) = ((s.accesses i).tail).map Access.cycle) ∧
    (i ≠ .hlt → tStates i (taken i s.flags) = ((cycles i (taken i s.flags)).map Cycle.tStates).sum)

/-- What no instruction changes, over the whole set: registers, SP, flags and control flip-flops outside those the tables
name, memory outside the addresses stored to, and the environment's answers and parameters (10 R20, R24, R31 to R35;
20 R57). -/
def Obligations.EveryInstructionKeepsItsFrame : Prop :=
  ∀ (i : Instr) (s t : State), exec i s = .next t →
    KeepsRegs (regsWritten i) s t ∧ KeepsBytes (s.storedAddresses i) s t ∧ KeepsWorld s t ∧
    (spWritten i = false → t.sp = s.sp) ∧ (ctlWritten i = false → t.ctl = s.ctl) ∧
    ((∀ port, i ≠ .outPort port) → t.outTrace = s.outTrace) ∧ (i ≠ .sim → t.sodTrace = s.sodTrace) ∧
    ((flagsWritten i).s = false → t.flags.s = s.flags.s) ∧ ((flagsWritten i).z = false → t.flags.z = s.flags.z) ∧
    ((flagsWritten i).ac = false → t.flags.ac = s.flags.ac) ∧ ((flagsWritten i).p = false → t.flags.p = s.flags.p) ∧
    ((flagsWritten i).cy = false → t.flags.cy = s.flags.cy)

/-- Over whole steps, each control flip-flop changes only as described. IE becomes 1 only by EI, and 0 only by DI, an
interrupt entry or reset; a mask changes only by SIM or reset; FF75 becomes 1 only by an RST 7.5 event, and 0 only by SIM, the
entry to RST 7.5 or reset; SOD changes only by SIM or reset; the Halt state begins only by HLT and ends only by an interrupt
entry or reset; EI_shadow begins only by EI, where EI_DELAY has it, and ends only by an instruction, an interrupt entry or
reset (10 R32, R33, R34, R35, R38, R42). How FF75 is set and cleared is decision D15 of the spec, the masks, FF75 and SOD at
reset D20, EI_shadow D14; that an event may come after the boundary is entry 6. -/
def Obligations.ControlStateChangesOnlyAsDescribed : Prop :=
  ∀ s t : State, step s = .next t → ∀ b i, b = s.sample.boundary → i = s.sample.begin.instrAt →
    (s.ctl.ie = false → t.ctl.ie = true → b = .run ∧ i = .ei) ∧
    (s.ctl.ie = true → t.ctl.ie = false → b.isReset = true ∨ (∃ src, b = .enter src) ∨ (b = .run ∧ i = .di)) ∧
    ((t.ctl.m75 ≠ s.ctl.m75 ∨ t.ctl.m65 ≠ s.ctl.m65 ∨ t.ctl.m55 ≠ s.ctl.m55) →
      b.isReset = true ∨ (b = .run ∧ i = .sim)) ∧
    (s.ctl.ff75 = false → t.ctl.ff75 = true →
      s.nextInputs.i75Event = true ∨ (b = .run ∧ s.nextInputs.run75Event = true)) ∧
    (s.ctl.ff75 = true → t.ctl.ff75 = false → b.isReset = true ∨ b = .enter .rst75 ∨ (b = .run ∧ i = .sim)) ∧
    (t.ctl.sod ≠ s.ctl.sod → b.isReset = true ∨ (b = .run ∧ i = .sim)) ∧
    (s.ctl.halted = false → t.ctl.halted = true → b = .run ∧ i = .hlt) ∧
    (s.ctl.halted = true → t.ctl.halted = false → b.isReset = true ∨ ∃ src, b = .enter src) ∧
    (s.ctl.eiShadow = false → t.ctl.eiShadow = true → b = .run ∧ i = .ei ∧ s.params.eiDelay ≠ .none) ∧
    (s.ctl.eiShadow = true → t.ctl.eiShadow = false →
      b.isReset = true ∨ (∃ src, b = .enter src) ∨
        (b = .run ∧ (i ≠ .ei ∨ s.params.eiDelay ≠ .oneInstruction)))

/-- Every defined instruction completes, in every state (60 R270: no instruction can fault). -/
def Obligations.EveryDefinedInstructionCompletes : Prop :=
  ∀ (i : Instr) (s : State), isDefined i → ∃ t, exec i s = .next t

/-- Only RIM and IN can see the environment: two runs of any other instruction from states that differ in the environment's
answer alone differ in nothing else after it (10 R36, 20 R60, 44 R263). -/
def Obligations.OnlyRimAndInSeeTheEnvironment : Prop :=
  ∀ (i : Instr) (s : State) (x : Inputs), i ≠ .rim → (∀ port, i ≠ .inPort port) →
    ∀ t, exec i s = .next t → exec i (s.withInputs x) = .next (t.withInputs x)

/-- `Push16(w)`: the high-order byte to SP - 1, the low-order byte to SP - 2, mod 65536, in RAM; SP lower by 2; every other
byte as before (20 R71). -/
def Obligations.PushSixteenStoresHighThenLow : Prop :=
  ∀ (s : State) (w : Word), Pushed s (s.push16 w) w ∧ KeepsBytes [s.sp - 1, s.sp - 2] s (s.push16 w) ∧
    (s.push16 w) = { s with mem := (s.push16 w).mem, sp := s.sp - 2 }

/-- `Pop16()`: the byte at SP is the low-order byte and the byte at SP + 1 the high-order byte of what it returns; SP is
higher by 2 and nothing else changes, memory included (20 R72). -/
def Obligations.PopSixteenReadsLowThenHigh : Prop :=
  ∀ s : State, s.top16.toNat = 256 * (s.readByte (s.sp + 1)).toNat + (s.readByte s.sp).toNat ∧
    s.drop16 = { s with sp := s.sp + 2 }

/-- Memory: a byte written in RAM is read back, every other address reads as before, and where there is no RAM a write
changes nothing; a 16-bit value stored at `a` reads back byte by byte (20 R51, R54, R64). -/
def Obligations.MemoryReadsWhatWasWritten : Prop :=
  ∀ (s : State) (a : Word) (v : Byte),
    (s.regionAt a = .ram → (s.writeByte a v).readByte a = v) ∧ (s.regionAt a ≠ .ram → s.writeByte a v = s) ∧
    (∀ b, b ≠ a → (s.writeByte a v).readByte b = s.readByte b) ∧
    (∀ w, s.regionAt a = .ram → s.regionAt (a + 1) = .ram →
      ((s.writeByte a (low w)).writeByte (a + 1) (high w)).readWord a = w)

/-- The interface that places an instruction (`withFetchWord`, entry 30) does what it says: the next step runs exactly the
instruction of the placed word (30 R95; 60 R276). -/
def Obligations.PlacedInstructionRunsNext : Prop :=
  ∀ (s : State) (nbits w : Nat) (i : Instr), decodeTableWord nbits w = some i →
    (s.withFetchWord nbits w).sample.boundary = .run ∧
    step (s.withFetchWord nbits w) = exec i (s.withFetchWord nbits w).sample.begin
end

