-- ==== Sys2Proof/Laws/State.lean ====
section
/-! SUPPORT. One lemma per field per update of State, true by unfolding one record update, so that no later proof unfolds
one. Names: <update>_<field>. -/

namespace Sys2Proof.Machine

/-! Field updates. -/

@[simp] theorem State.withRegs_regs (s : State) (x : Regs) : (s.withRegs x).regs = x := rfl
@[simp] theorem State.withRegs_flags (s : State) (x : Regs) : (s.withRegs x).flags = s.flags := rfl
@[simp] theorem State.withRegs_sp (s : State) (x : Regs) : (s.withRegs x).sp = s.sp := rfl
@[simp] theorem State.withRegs_pc (s : State) (x : Regs) : (s.withRegs x).pc = s.pc := rfl
@[simp] theorem State.withRegs_ctl (s : State) (x : Regs) : (s.withRegs x).ctl = s.ctl := rfl
@[simp] theorem State.withRegs_mem (s : State) (x : Regs) : (s.withRegs x).mem = s.mem := rfl
@[simp] theorem State.withRegs_inputs (s : State) (x : Regs) : (s.withRegs x).inputs = s.inputs := rfl
@[simp] theorem State.withRegs_script (s : State) (x : Regs) : (s.withRegs x).script = s.script := rfl
@[simp] theorem State.withRegs_outTrace (s : State) (x : Regs) : (s.withRegs x).outTrace = s.outTrace := rfl
@[simp] theorem State.withRegs_sodTrace (s : State) (x : Regs) : (s.withRegs x).sodTrace = s.sodTrace := rfl
@[simp] theorem State.withRegs_draws (s : State) (x : Regs) : (s.withRegs x).draws = s.draws := rfl
@[simp] theorem State.withRegs_params (s : State) (x : Regs) : (s.withRegs x).params = s.params := rfl
@[simp] theorem State.withRegs_readByte (s : State) (x : Regs) (a : Word) : (s.withRegs x).readByte a = s.readByte a := rfl
@[simp] theorem State.withRegs_regionAt (s : State) (x : Regs) (a : Word) : (s.withRegs x).regionAt a = s.regionAt a := rfl

@[simp] theorem State.withFlags_regs (s : State) (x : Flags) : (s.withFlags x).regs = s.regs := rfl
@[simp] theorem State.withFlags_flags (s : State) (x : Flags) : (s.withFlags x).flags = x := rfl
@[simp] theorem State.withFlags_sp (s : State) (x : Flags) : (s.withFlags x).sp = s.sp := rfl
@[simp] theorem State.withFlags_pc (s : State) (x : Flags) : (s.withFlags x).pc = s.pc := rfl
@[simp] theorem State.withFlags_ctl (s : State) (x : Flags) : (s.withFlags x).ctl = s.ctl := rfl
@[simp] theorem State.withFlags_mem (s : State) (x : Flags) : (s.withFlags x).mem = s.mem := rfl
@[simp] theorem State.withFlags_inputs (s : State) (x : Flags) : (s.withFlags x).inputs = s.inputs := rfl
@[simp] theorem State.withFlags_script (s : State) (x : Flags) : (s.withFlags x).script = s.script := rfl
@[simp] theorem State.withFlags_outTrace (s : State) (x : Flags) : (s.withFlags x).outTrace = s.outTrace := rfl
@[simp] theorem State.withFlags_sodTrace (s : State) (x : Flags) : (s.withFlags x).sodTrace = s.sodTrace := rfl
@[simp] theorem State.withFlags_draws (s : State) (x : Flags) : (s.withFlags x).draws = s.draws := rfl
@[simp] theorem State.withFlags_params (s : State) (x : Flags) : (s.withFlags x).params = s.params := rfl
@[simp] theorem State.withFlags_readByte (s : State) (x : Flags) (a : Word) : (s.withFlags x).readByte a = s.readByte a := rfl
@[simp] theorem State.withFlags_regionAt (s : State) (x : Flags) (a : Word) : (s.withFlags x).regionAt a = s.regionAt a := rfl

@[simp] theorem State.withSp_regs (s : State) (x : Word) : (s.withSp x).regs = s.regs := rfl
@[simp] theorem State.withSp_flags (s : State) (x : Word) : (s.withSp x).flags = s.flags := rfl
@[simp] theorem State.withSp_sp (s : State) (x : Word) : (s.withSp x).sp = x := rfl
@[simp] theorem State.withSp_pc (s : State) (x : Word) : (s.withSp x).pc = s.pc := rfl
@[simp] theorem State.withSp_ctl (s : State) (x : Word) : (s.withSp x).ctl = s.ctl := rfl
@[simp] theorem State.withSp_mem (s : State) (x : Word) : (s.withSp x).mem = s.mem := rfl
@[simp] theorem State.withSp_inputs (s : State) (x : Word) : (s.withSp x).inputs = s.inputs := rfl
@[simp] theorem State.withSp_script (s : State) (x : Word) : (s.withSp x).script = s.script := rfl
@[simp] theorem State.withSp_outTrace (s : State) (x : Word) : (s.withSp x).outTrace = s.outTrace := rfl
@[simp] theorem State.withSp_sodTrace (s : State) (x : Word) : (s.withSp x).sodTrace = s.sodTrace := rfl
@[simp] theorem State.withSp_draws (s : State) (x : Word) : (s.withSp x).draws = s.draws := rfl
@[simp] theorem State.withSp_params (s : State) (x : Word) : (s.withSp x).params = s.params := rfl
@[simp] theorem State.withSp_readByte (s : State) (x : Word) (a : Word) : (s.withSp x).readByte a = s.readByte a := rfl
@[simp] theorem State.withSp_regionAt (s : State) (x : Word) (a : Word) : (s.withSp x).regionAt a = s.regionAt a := rfl

@[simp] theorem State.withPc_regs (s : State) (x : Word) : (s.withPc x).regs = s.regs := rfl
@[simp] theorem State.withPc_flags (s : State) (x : Word) : (s.withPc x).flags = s.flags := rfl
@[simp] theorem State.withPc_sp (s : State) (x : Word) : (s.withPc x).sp = s.sp := rfl
@[simp] theorem State.withPc_pc (s : State) (x : Word) : (s.withPc x).pc = x := rfl
@[simp] theorem State.withPc_ctl (s : State) (x : Word) : (s.withPc x).ctl = s.ctl := rfl
@[simp] theorem State.withPc_mem (s : State) (x : Word) : (s.withPc x).mem = s.mem := rfl
@[simp] theorem State.withPc_inputs (s : State) (x : Word) : (s.withPc x).inputs = s.inputs := rfl
@[simp] theorem State.withPc_script (s : State) (x : Word) : (s.withPc x).script = s.script := rfl
@[simp] theorem State.withPc_outTrace (s : State) (x : Word) : (s.withPc x).outTrace = s.outTrace := rfl
@[simp] theorem State.withPc_sodTrace (s : State) (x : Word) : (s.withPc x).sodTrace = s.sodTrace := rfl
@[simp] theorem State.withPc_draws (s : State) (x : Word) : (s.withPc x).draws = s.draws := rfl
@[simp] theorem State.withPc_params (s : State) (x : Word) : (s.withPc x).params = s.params := rfl
@[simp] theorem State.withPc_readByte (s : State) (x : Word) (a : Word) : (s.withPc x).readByte a = s.readByte a := rfl
@[simp] theorem State.withPc_regionAt (s : State) (x : Word) (a : Word) : (s.withPc x).regionAt a = s.regionAt a := rfl

@[simp] theorem State.withCtl_regs (s : State) (x : Control) : (s.withCtl x).regs = s.regs := rfl
@[simp] theorem State.withCtl_flags (s : State) (x : Control) : (s.withCtl x).flags = s.flags := rfl
@[simp] theorem State.withCtl_sp (s : State) (x : Control) : (s.withCtl x).sp = s.sp := rfl
@[simp] theorem State.withCtl_pc (s : State) (x : Control) : (s.withCtl x).pc = s.pc := rfl
@[simp] theorem State.withCtl_ctl (s : State) (x : Control) : (s.withCtl x).ctl = x := rfl
@[simp] theorem State.withCtl_mem (s : State) (x : Control) : (s.withCtl x).mem = s.mem := rfl
@[simp] theorem State.withCtl_inputs (s : State) (x : Control) : (s.withCtl x).inputs = s.inputs := rfl
@[simp] theorem State.withCtl_script (s : State) (x : Control) : (s.withCtl x).script = s.script := rfl
@[simp] theorem State.withCtl_outTrace (s : State) (x : Control) : (s.withCtl x).outTrace = s.outTrace := rfl
@[simp] theorem State.withCtl_sodTrace (s : State) (x : Control) : (s.withCtl x).sodTrace = s.sodTrace := rfl
@[simp] theorem State.withCtl_draws (s : State) (x : Control) : (s.withCtl x).draws = s.draws := rfl
@[simp] theorem State.withCtl_params (s : State) (x : Control) : (s.withCtl x).params = s.params := rfl
@[simp] theorem State.withCtl_readByte (s : State) (x : Control) (a : Word) : (s.withCtl x).readByte a = s.readByte a := rfl
@[simp] theorem State.withCtl_regionAt (s : State) (x : Control) (a : Word) : (s.withCtl x).regionAt a = s.regionAt a := rfl

@[simp] theorem State.withMem_regs (s : State) (x : Memory) : (s.withMem x).regs = s.regs := rfl
@[simp] theorem State.withMem_flags (s : State) (x : Memory) : (s.withMem x).flags = s.flags := rfl
@[simp] theorem State.withMem_sp (s : State) (x : Memory) : (s.withMem x).sp = s.sp := rfl
@[simp] theorem State.withMem_pc (s : State) (x : Memory) : (s.withMem x).pc = s.pc := rfl
@[simp] theorem State.withMem_ctl (s : State) (x : Memory) : (s.withMem x).ctl = s.ctl := rfl
@[simp] theorem State.withMem_mem (s : State) (x : Memory) : (s.withMem x).mem = x := rfl
@[simp] theorem State.withMem_inputs (s : State) (x : Memory) : (s.withMem x).inputs = s.inputs := rfl
@[simp] theorem State.withMem_script (s : State) (x : Memory) : (s.withMem x).script = s.script := rfl
@[simp] theorem State.withMem_outTrace (s : State) (x : Memory) : (s.withMem x).outTrace = s.outTrace := rfl
@[simp] theorem State.withMem_sodTrace (s : State) (x : Memory) : (s.withMem x).sodTrace = s.sodTrace := rfl
@[simp] theorem State.withMem_draws (s : State) (x : Memory) : (s.withMem x).draws = s.draws := rfl
@[simp] theorem State.withMem_params (s : State) (x : Memory) : (s.withMem x).params = s.params := rfl
@[simp] theorem State.withMem_regionAt (s : State) (x : Memory) (a : Word) : (s.withMem x).regionAt a = s.regionAt a := rfl

@[simp] theorem State.withInputs_regs (s : State) (x : Inputs) : (s.withInputs x).regs = s.regs := rfl
@[simp] theorem State.withInputs_flags (s : State) (x : Inputs) : (s.withInputs x).flags = s.flags := rfl
@[simp] theorem State.withInputs_sp (s : State) (x : Inputs) : (s.withInputs x).sp = s.sp := rfl
@[simp] theorem State.withInputs_pc (s : State) (x : Inputs) : (s.withInputs x).pc = s.pc := rfl
@[simp] theorem State.withInputs_ctl (s : State) (x : Inputs) : (s.withInputs x).ctl = s.ctl := rfl
@[simp] theorem State.withInputs_mem (s : State) (x : Inputs) : (s.withInputs x).mem = s.mem := rfl
@[simp] theorem State.withInputs_inputs (s : State) (x : Inputs) : (s.withInputs x).inputs = x := rfl
@[simp] theorem State.withInputs_script (s : State) (x : Inputs) : (s.withInputs x).script = s.script := rfl
@[simp] theorem State.withInputs_outTrace (s : State) (x : Inputs) : (s.withInputs x).outTrace = s.outTrace := rfl
@[simp] theorem State.withInputs_sodTrace (s : State) (x : Inputs) : (s.withInputs x).sodTrace = s.sodTrace := rfl
@[simp] theorem State.withInputs_draws (s : State) (x : Inputs) : (s.withInputs x).draws = s.draws := rfl
@[simp] theorem State.withInputs_params (s : State) (x : Inputs) : (s.withInputs x).params = s.params := rfl
@[simp] theorem State.withInputs_readByte (s : State) (x : Inputs) (a : Word) : (s.withInputs x).readByte a = s.readByte a := rfl
@[simp] theorem State.withInputs_regionAt (s : State) (x : Inputs) (a : Word) : (s.withInputs x).regionAt a = s.regionAt a := rfl

@[simp] theorem State.withScript_regs (s : State) (x : List Inputs) : (s.withScript x).regs = s.regs := rfl
@[simp] theorem State.withScript_flags (s : State) (x : List Inputs) : (s.withScript x).flags = s.flags := rfl
@[simp] theorem State.withScript_sp (s : State) (x : List Inputs) : (s.withScript x).sp = s.sp := rfl
@[simp] theorem State.withScript_pc (s : State) (x : List Inputs) : (s.withScript x).pc = s.pc := rfl
@[simp] theorem State.withScript_ctl (s : State) (x : List Inputs) : (s.withScript x).ctl = s.ctl := rfl
@[simp] theorem State.withScript_mem (s : State) (x : List Inputs) : (s.withScript x).mem = s.mem := rfl
@[simp] theorem State.withScript_inputs (s : State) (x : List Inputs) : (s.withScript x).inputs = s.inputs := rfl
@[simp] theorem State.withScript_script (s : State) (x : List Inputs) : (s.withScript x).script = x := rfl
@[simp] theorem State.withScript_outTrace (s : State) (x : List Inputs) : (s.withScript x).outTrace = s.outTrace := rfl
@[simp] theorem State.withScript_sodTrace (s : State) (x : List Inputs) : (s.withScript x).sodTrace = s.sodTrace := rfl
@[simp] theorem State.withScript_draws (s : State) (x : List Inputs) : (s.withScript x).draws = s.draws := rfl
@[simp] theorem State.withScript_params (s : State) (x : List Inputs) : (s.withScript x).params = s.params := rfl
@[simp] theorem State.withScript_readByte (s : State) (x : List Inputs) (a : Word) : (s.withScript x).readByte a = s.readByte a := rfl
@[simp] theorem State.withScript_regionAt (s : State) (x : List Inputs) (a : Word) : (s.withScript x).regionAt a = s.regionAt a := rfl

@[simp] theorem State.withOutTrace_regs (s : State) (x : List (Byte × Byte)) : (s.withOutTrace x).regs = s.regs := rfl
@[simp] theorem State.withOutTrace_flags (s : State) (x : List (Byte × Byte)) : (s.withOutTrace x).flags = s.flags := rfl
@[simp] theorem State.withOutTrace_sp (s : State) (x : List (Byte × Byte)) : (s.withOutTrace x).sp = s.sp := rfl
@[simp] theorem State.withOutTrace_pc (s : State) (x : List (Byte × Byte)) : (s.withOutTrace x).pc = s.pc := rfl
@[simp] theorem State.withOutTrace_ctl (s : State) (x : List (Byte × Byte)) : (s.withOutTrace x).ctl = s.ctl := rfl
@[simp] theorem State.withOutTrace_mem (s : State) (x : List (Byte × Byte)) : (s.withOutTrace x).mem = s.mem := rfl
@[simp] theorem State.withOutTrace_inputs (s : State) (x : List (Byte × Byte)) : (s.withOutTrace x).inputs = s.inputs := rfl
@[simp] theorem State.withOutTrace_script (s : State) (x : List (Byte × Byte)) : (s.withOutTrace x).script = s.script := rfl
@[simp] theorem State.withOutTrace_outTrace (s : State) (x : List (Byte × Byte)) : (s.withOutTrace x).outTrace = x := rfl
@[simp] theorem State.withOutTrace_sodTrace (s : State) (x : List (Byte × Byte)) : (s.withOutTrace x).sodTrace = s.sodTrace := rfl
@[simp] theorem State.withOutTrace_draws (s : State) (x : List (Byte × Byte)) : (s.withOutTrace x).draws = s.draws := rfl
@[simp] theorem State.withOutTrace_params (s : State) (x : List (Byte × Byte)) : (s.withOutTrace x).params = s.params := rfl
@[simp] theorem State.withOutTrace_readByte (s : State) (x : List (Byte × Byte)) (a : Word) : (s.withOutTrace x).readByte a = s.readByte a := rfl
@[simp] theorem State.withOutTrace_regionAt (s : State) (x : List (Byte × Byte)) (a : Word) : (s.withOutTrace x).regionAt a = s.regionAt a := rfl

@[simp] theorem State.withSodTrace_regs (s : State) (x : List Bool) : (s.withSodTrace x).regs = s.regs := rfl
@[simp] theorem State.withSodTrace_flags (s : State) (x : List Bool) : (s.withSodTrace x).flags = s.flags := rfl
@[simp] theorem State.withSodTrace_sp (s : State) (x : List Bool) : (s.withSodTrace x).sp = s.sp := rfl
@[simp] theorem State.withSodTrace_pc (s : State) (x : List Bool) : (s.withSodTrace x).pc = s.pc := rfl
@[simp] theorem State.withSodTrace_ctl (s : State) (x : List Bool) : (s.withSodTrace x).ctl = s.ctl := rfl
@[simp] theorem State.withSodTrace_mem (s : State) (x : List Bool) : (s.withSodTrace x).mem = s.mem := rfl
@[simp] theorem State.withSodTrace_inputs (s : State) (x : List Bool) : (s.withSodTrace x).inputs = s.inputs := rfl
@[simp] theorem State.withSodTrace_script (s : State) (x : List Bool) : (s.withSodTrace x).script = s.script := rfl
@[simp] theorem State.withSodTrace_outTrace (s : State) (x : List Bool) : (s.withSodTrace x).outTrace = s.outTrace := rfl
@[simp] theorem State.withSodTrace_sodTrace (s : State) (x : List Bool) : (s.withSodTrace x).sodTrace = x := rfl
@[simp] theorem State.withSodTrace_draws (s : State) (x : List Bool) : (s.withSodTrace x).draws = s.draws := rfl
@[simp] theorem State.withSodTrace_params (s : State) (x : List Bool) : (s.withSodTrace x).params = s.params := rfl
@[simp] theorem State.withSodTrace_readByte (s : State) (x : List Bool) (a : Word) : (s.withSodTrace x).readByte a = s.readByte a := rfl
@[simp] theorem State.withSodTrace_regionAt (s : State) (x : List Bool) (a : Word) : (s.withSodTrace x).regionAt a = s.regionAt a := rfl

@[simp] theorem State.withDraws_regs (s : State) (x : Nat) : (s.withDraws x).regs = s.regs := rfl
@[simp] theorem State.withDraws_flags (s : State) (x : Nat) : (s.withDraws x).flags = s.flags := rfl
@[simp] theorem State.withDraws_sp (s : State) (x : Nat) : (s.withDraws x).sp = s.sp := rfl
@[simp] theorem State.withDraws_pc (s : State) (x : Nat) : (s.withDraws x).pc = s.pc := rfl
@[simp] theorem State.withDraws_ctl (s : State) (x : Nat) : (s.withDraws x).ctl = s.ctl := rfl
@[simp] theorem State.withDraws_mem (s : State) (x : Nat) : (s.withDraws x).mem = s.mem := rfl
@[simp] theorem State.withDraws_inputs (s : State) (x : Nat) : (s.withDraws x).inputs = s.inputs := rfl
@[simp] theorem State.withDraws_script (s : State) (x : Nat) : (s.withDraws x).script = s.script := rfl
@[simp] theorem State.withDraws_outTrace (s : State) (x : Nat) : (s.withDraws x).outTrace = s.outTrace := rfl
@[simp] theorem State.withDraws_sodTrace (s : State) (x : Nat) : (s.withDraws x).sodTrace = s.sodTrace := rfl
@[simp] theorem State.withDraws_draws (s : State) (x : Nat) : (s.withDraws x).draws = x := rfl
@[simp] theorem State.withDraws_params (s : State) (x : Nat) : (s.withDraws x).params = s.params := rfl
@[simp] theorem State.withDraws_regionAt (s : State) (x : Nat) (a : Word) : (s.withDraws x).regionAt a = s.regionAt a := rfl

@[simp] theorem State.withParams_regs (s : State) (x : Config.Params) : (s.withParams x).regs = s.regs := rfl
@[simp] theorem State.withParams_flags (s : State) (x : Config.Params) : (s.withParams x).flags = s.flags := rfl
@[simp] theorem State.withParams_sp (s : State) (x : Config.Params) : (s.withParams x).sp = s.sp := rfl
@[simp] theorem State.withParams_pc (s : State) (x : Config.Params) : (s.withParams x).pc = s.pc := rfl
@[simp] theorem State.withParams_ctl (s : State) (x : Config.Params) : (s.withParams x).ctl = s.ctl := rfl
@[simp] theorem State.withParams_mem (s : State) (x : Config.Params) : (s.withParams x).mem = s.mem := rfl
@[simp] theorem State.withParams_inputs (s : State) (x : Config.Params) : (s.withParams x).inputs = s.inputs := rfl
@[simp] theorem State.withParams_script (s : State) (x : Config.Params) : (s.withParams x).script = s.script := rfl
@[simp] theorem State.withParams_outTrace (s : State) (x : Config.Params) : (s.withParams x).outTrace = s.outTrace := rfl
@[simp] theorem State.withParams_sodTrace (s : State) (x : Config.Params) : (s.withParams x).sodTrace = s.sodTrace := rfl
@[simp] theorem State.withParams_draws (s : State) (x : Config.Params) : (s.withParams x).draws = s.draws := rfl
@[simp] theorem State.withParams_params (s : State) (x : Config.Params) : (s.withParams x).params = x := rfl

/-! Named operations. -/

@[simp] theorem State.writeReg_flags (s : State) (r : Reg) (v : Byte) : (s.writeReg r v).flags = s.flags := rfl
@[simp] theorem State.writeReg_sp (s : State) (r : Reg) (v : Byte) : (s.writeReg r v).sp = s.sp := rfl
@[simp] theorem State.writeReg_pc (s : State) (r : Reg) (v : Byte) : (s.writeReg r v).pc = s.pc := rfl
@[simp] theorem State.writeReg_ctl (s : State) (r : Reg) (v : Byte) : (s.writeReg r v).ctl = s.ctl := rfl
@[simp] theorem State.writeReg_mem (s : State) (r : Reg) (v : Byte) : (s.writeReg r v).mem = s.mem := rfl
@[simp] theorem State.writeReg_inputs (s : State) (r : Reg) (v : Byte) : (s.writeReg r v).inputs = s.inputs := rfl
@[simp] theorem State.writeReg_script (s : State) (r : Reg) (v : Byte) : (s.writeReg r v).script = s.script := rfl
@[simp] theorem State.writeReg_outTrace (s : State) (r : Reg) (v : Byte) : (s.writeReg r v).outTrace = s.outTrace := rfl
@[simp] theorem State.writeReg_sodTrace (s : State) (r : Reg) (v : Byte) : (s.writeReg r v).sodTrace = s.sodTrace := rfl
@[simp] theorem State.writeReg_draws (s : State) (r : Reg) (v : Byte) : (s.writeReg r v).draws = s.draws := rfl
@[simp] theorem State.writeReg_params (s : State) (r : Reg) (v : Byte) : (s.writeReg r v).params = s.params := rfl
@[simp] theorem State.writeReg_readByte (s : State) (r : Reg) (v : Byte) (x : Word) : (s.writeReg r v).readByte x = s.readByte x := rfl
@[simp] theorem State.writeReg_regionAt (s : State) (r : Reg) (v : Byte) (x : Word) : (s.writeReg r v).regionAt x = s.regionAt x := rfl

@[simp] theorem State.writeReg_regs (s : State) (r : Reg) (v : Byte) : (s.writeReg r v).regs = s.regs.set r v := rfl

@[simp] theorem State.writePair_flags (s : State) (p : Pair) (w : Word) : (s.writePair p w).flags = s.flags := by cases p <;> rfl
@[simp] theorem State.writePair_pc (s : State) (p : Pair) (w : Word) : (s.writePair p w).pc = s.pc := by cases p <;> rfl
@[simp] theorem State.writePair_ctl (s : State) (p : Pair) (w : Word) : (s.writePair p w).ctl = s.ctl := by cases p <;> rfl
@[simp] theorem State.writePair_mem (s : State) (p : Pair) (w : Word) : (s.writePair p w).mem = s.mem := by cases p <;> rfl
@[simp] theorem State.writePair_inputs (s : State) (p : Pair) (w : Word) : (s.writePair p w).inputs = s.inputs := by cases p <;> rfl
@[simp] theorem State.writePair_script (s : State) (p : Pair) (w : Word) : (s.writePair p w).script = s.script := by cases p <;> rfl
@[simp] theorem State.writePair_outTrace (s : State) (p : Pair) (w : Word) : (s.writePair p w).outTrace = s.outTrace := by cases p <;> rfl
@[simp] theorem State.writePair_sodTrace (s : State) (p : Pair) (w : Word) : (s.writePair p w).sodTrace = s.sodTrace := by cases p <;> rfl
@[simp] theorem State.writePair_draws (s : State) (p : Pair) (w : Word) : (s.writePair p w).draws = s.draws := by cases p <;> rfl
@[simp] theorem State.writePair_params (s : State) (p : Pair) (w : Word) : (s.writePair p w).params = s.params := by cases p <;> rfl
@[simp] theorem State.writePair_readByte (s : State) (p : Pair) (w : Word) (x : Word) : (s.writePair p w).readByte x = s.readByte x := by cases p <;> rfl
@[simp] theorem State.writePair_regionAt (s : State) (p : Pair) (w : Word) (x : Word) : (s.writePair p w).regionAt x = s.regionAt x := by cases p <;> rfl

@[simp] theorem State.writeByte_regs (s : State) (a : Word) (v : Byte) : (s.writeByte a v).regs = s.regs := rfl
@[simp] theorem State.writeByte_flags (s : State) (a : Word) (v : Byte) : (s.writeByte a v).flags = s.flags := rfl
@[simp] theorem State.writeByte_sp (s : State) (a : Word) (v : Byte) : (s.writeByte a v).sp = s.sp := rfl
@[simp] theorem State.writeByte_pc (s : State) (a : Word) (v : Byte) : (s.writeByte a v).pc = s.pc := rfl
@[simp] theorem State.writeByte_ctl (s : State) (a : Word) (v : Byte) : (s.writeByte a v).ctl = s.ctl := rfl
@[simp] theorem State.writeByte_inputs (s : State) (a : Word) (v : Byte) : (s.writeByte a v).inputs = s.inputs := rfl
@[simp] theorem State.writeByte_script (s : State) (a : Word) (v : Byte) : (s.writeByte a v).script = s.script := rfl
@[simp] theorem State.writeByte_outTrace (s : State) (a : Word) (v : Byte) : (s.writeByte a v).outTrace = s.outTrace := rfl
@[simp] theorem State.writeByte_sodTrace (s : State) (a : Word) (v : Byte) : (s.writeByte a v).sodTrace = s.sodTrace := rfl
@[simp] theorem State.writeByte_draws (s : State) (a : Word) (v : Byte) : (s.writeByte a v).draws = s.draws := rfl
@[simp] theorem State.writeByte_params (s : State) (a : Word) (v : Byte) : (s.writeByte a v).params = s.params := rfl
@[simp] theorem State.writeByte_regionAt (s : State) (a : Word) (v : Byte) (x : Word) : (s.writeByte a v).regionAt x = s.regionAt x := rfl

@[simp] theorem State.writeByte_mem (s : State) (a : Word) (v : Byte) : (s.writeByte a v).mem = s.memAfter a v := rfl

@[simp] theorem State.push16_regs (s : State) (w : Word) : (s.push16 w).regs = s.regs := rfl
@[simp] theorem State.push16_flags (s : State) (w : Word) : (s.push16 w).flags = s.flags := rfl
@[simp] theorem State.push16_pc (s : State) (w : Word) : (s.push16 w).pc = s.pc := rfl
@[simp] theorem State.push16_ctl (s : State) (w : Word) : (s.push16 w).ctl = s.ctl := rfl
@[simp] theorem State.push16_inputs (s : State) (w : Word) : (s.push16 w).inputs = s.inputs := rfl
@[simp] theorem State.push16_script (s : State) (w : Word) : (s.push16 w).script = s.script := rfl
@[simp] theorem State.push16_outTrace (s : State) (w : Word) : (s.push16 w).outTrace = s.outTrace := rfl
@[simp] theorem State.push16_sodTrace (s : State) (w : Word) : (s.push16 w).sodTrace = s.sodTrace := rfl
@[simp] theorem State.push16_draws (s : State) (w : Word) : (s.push16 w).draws = s.draws := rfl
@[simp] theorem State.push16_params (s : State) (w : Word) : (s.push16 w).params = s.params := rfl
@[simp] theorem State.push16_regionAt (s : State) (w : Word) (x : Word) : (s.push16 w).regionAt x = s.regionAt x := rfl

@[simp] theorem State.push16_sp (s : State) (w : Word) : (s.push16 w).sp = s.sp - 2 := rfl

@[simp] theorem State.drop16_regs (s : State) : (s.drop16).regs = s.regs := rfl
@[simp] theorem State.drop16_flags (s : State) : (s.drop16).flags = s.flags := rfl
@[simp] theorem State.drop16_pc (s : State) : (s.drop16).pc = s.pc := rfl
@[simp] theorem State.drop16_ctl (s : State) : (s.drop16).ctl = s.ctl := rfl
@[simp] theorem State.drop16_mem (s : State) : (s.drop16).mem = s.mem := rfl
@[simp] theorem State.drop16_inputs (s : State) : (s.drop16).inputs = s.inputs := rfl
@[simp] theorem State.drop16_script (s : State) : (s.drop16).script = s.script := rfl
@[simp] theorem State.drop16_outTrace (s : State) : (s.drop16).outTrace = s.outTrace := rfl
@[simp] theorem State.drop16_sodTrace (s : State) : (s.drop16).sodTrace = s.sodTrace := rfl
@[simp] theorem State.drop16_draws (s : State) : (s.drop16).draws = s.draws := rfl
@[simp] theorem State.drop16_params (s : State) : (s.drop16).params = s.params := rfl
@[simp] theorem State.drop16_readByte (s : State) (x : Word) : (s.drop16).readByte x = s.readByte x := rfl
@[simp] theorem State.drop16_regionAt (s : State) (x : Word) : (s.drop16).regionAt x = s.regionAt x := rfl

@[simp] theorem State.drop16_sp (s : State) : s.drop16.sp = s.sp + 2 := rfl

@[simp] theorem State.advance_regs (s : State) (n : Nat) : (s.advance n).regs = s.regs := rfl
@[simp] theorem State.advance_flags (s : State) (n : Nat) : (s.advance n).flags = s.flags := rfl
@[simp] theorem State.advance_sp (s : State) (n : Nat) : (s.advance n).sp = s.sp := rfl
@[simp] theorem State.advance_ctl (s : State) (n : Nat) : (s.advance n).ctl = s.ctl := rfl
@[simp] theorem State.advance_mem (s : State) (n : Nat) : (s.advance n).mem = s.mem := rfl
@[simp] theorem State.advance_inputs (s : State) (n : Nat) : (s.advance n).inputs = s.inputs := rfl
@[simp] theorem State.advance_script (s : State) (n : Nat) : (s.advance n).script = s.script := rfl
@[simp] theorem State.advance_outTrace (s : State) (n : Nat) : (s.advance n).outTrace = s.outTrace := rfl
@[simp] theorem State.advance_sodTrace (s : State) (n : Nat) : (s.advance n).sodTrace = s.sodTrace := rfl
@[simp] theorem State.advance_draws (s : State) (n : Nat) : (s.advance n).draws = s.draws := rfl
@[simp] theorem State.advance_params (s : State) (n : Nat) : (s.advance n).params = s.params := rfl
@[simp] theorem State.advance_readByte (s : State) (n : Nat) (x : Word) : (s.advance n).readByte x = s.readByte x := rfl
@[simp] theorem State.advance_regionAt (s : State) (n : Nat) (x : Word) : (s.advance n).regionAt x = s.regionAt x := rfl

@[simp] theorem State.advance_pc (s : State) (n : Nat) : (s.advance n).pc = s.pc + BitVec.ofNat 16 n := rfl

@[simp] theorem State.portOut_regs (s : State) (port v : Byte) : (s.portOut port v).regs = s.regs := rfl
@[simp] theorem State.portOut_flags (s : State) (port v : Byte) : (s.portOut port v).flags = s.flags := rfl
@[simp] theorem State.portOut_sp (s : State) (port v : Byte) : (s.portOut port v).sp = s.sp := rfl
@[simp] theorem State.portOut_pc (s : State) (port v : Byte) : (s.portOut port v).pc = s.pc := rfl
@[simp] theorem State.portOut_ctl (s : State) (port v : Byte) : (s.portOut port v).ctl = s.ctl := rfl
@[simp] theorem State.portOut_mem (s : State) (port v : Byte) : (s.portOut port v).mem = s.mem := rfl
@[simp] theorem State.portOut_inputs (s : State) (port v : Byte) : (s.portOut port v).inputs = s.inputs := rfl
@[simp] theorem State.portOut_script (s : State) (port v : Byte) : (s.portOut port v).script = s.script := rfl
@[simp] theorem State.portOut_sodTrace (s : State) (port v : Byte) : (s.portOut port v).sodTrace = s.sodTrace := rfl
@[simp] theorem State.portOut_draws (s : State) (port v : Byte) : (s.portOut port v).draws = s.draws := rfl
@[simp] theorem State.portOut_params (s : State) (port v : Byte) : (s.portOut port v).params = s.params := rfl
@[simp] theorem State.portOut_readByte (s : State) (port v : Byte) (x : Word) : (s.portOut port v).readByte x = s.readByte x := rfl
@[simp] theorem State.portOut_regionAt (s : State) (port v : Byte) (x : Word) : (s.portOut port v).regionAt x = s.regionAt x := rfl

@[simp] theorem State.portOut_outTrace (s : State) (port v : Byte) : (s.portOut port v).outTrace = s.outTrace ++ [(port, v)] := rfl

@[simp] theorem State.callTo_regs (s : State) (target ret : Word) : (s.callTo target ret).regs = s.regs := rfl
@[simp] theorem State.callTo_flags (s : State) (target ret : Word) : (s.callTo target ret).flags = s.flags := rfl
@[simp] theorem State.callTo_ctl (s : State) (target ret : Word) : (s.callTo target ret).ctl = s.ctl := rfl
@[simp] theorem State.callTo_inputs (s : State) (target ret : Word) : (s.callTo target ret).inputs = s.inputs := rfl
@[simp] theorem State.callTo_script (s : State) (target ret : Word) : (s.callTo target ret).script = s.script := rfl
@[simp] theorem State.callTo_outTrace (s : State) (target ret : Word) : (s.callTo target ret).outTrace = s.outTrace := rfl
@[simp] theorem State.callTo_sodTrace (s : State) (target ret : Word) : (s.callTo target ret).sodTrace = s.sodTrace := rfl
@[simp] theorem State.callTo_draws (s : State) (target ret : Word) : (s.callTo target ret).draws = s.draws := rfl
@[simp] theorem State.callTo_params (s : State) (target ret : Word) : (s.callTo target ret).params = s.params := rfl
@[simp] theorem State.callTo_regionAt (s : State) (target ret : Word) (x : Word) : (s.callTo target ret).regionAt x = s.regionAt x := rfl

@[simp] theorem State.callTo_mem (s : State) (target ret : Word) : (s.callTo target ret).mem = (s.push16 ret).mem := rfl
@[simp] theorem State.callTo_sp (s : State) (target ret : Word) : (s.callTo target ret).sp = s.sp - 2 := rfl
@[simp] theorem State.callTo_pc (s : State) (target ret : Word) : (s.callTo target ret).pc = target := rfl
@[simp] theorem State.callTo_readByte (s : State) (target ret : Word) (a : Word) : (s.callTo target ret).readByte a = (s.push16 ret).readByte a := rfl

@[simp] theorem State.returnFrom_regs (s : State) : (s.returnFrom).regs = s.regs := rfl
@[simp] theorem State.returnFrom_flags (s : State) : (s.returnFrom).flags = s.flags := rfl
@[simp] theorem State.returnFrom_ctl (s : State) : (s.returnFrom).ctl = s.ctl := rfl
@[simp] theorem State.returnFrom_mem (s : State) : (s.returnFrom).mem = s.mem := rfl
@[simp] theorem State.returnFrom_inputs (s : State) : (s.returnFrom).inputs = s.inputs := rfl
@[simp] theorem State.returnFrom_script (s : State) : (s.returnFrom).script = s.script := rfl
@[simp] theorem State.returnFrom_outTrace (s : State) : (s.returnFrom).outTrace = s.outTrace := rfl
@[simp] theorem State.returnFrom_sodTrace (s : State) : (s.returnFrom).sodTrace = s.sodTrace := rfl
@[simp] theorem State.returnFrom_draws (s : State) : (s.returnFrom).draws = s.draws := rfl
@[simp] theorem State.returnFrom_params (s : State) : (s.returnFrom).params = s.params := rfl
@[simp] theorem State.returnFrom_readByte (s : State) (x : Word) : (s.returnFrom).readByte x = s.readByte x := rfl
@[simp] theorem State.returnFrom_regionAt (s : State) (x : Word) : (s.returnFrom).regionAt x = s.regionAt x := rfl

@[simp] theorem State.returnFrom_sp (s : State) : s.returnFrom.sp = s.sp + 2 := rfl
@[simp] theorem State.returnFrom_pc (s : State) : s.returnFrom.pc = s.top16 := rfl

@[simp] theorem State.enter_regs (s : State) (v : Word) : (s.enter v).regs = s.regs := rfl
@[simp] theorem State.enter_flags (s : State) (v : Word) : (s.enter v).flags = s.flags := rfl
@[simp] theorem State.enter_inputs (s : State) (v : Word) : (s.enter v).inputs = s.inputs := rfl
@[simp] theorem State.enter_script (s : State) (v : Word) : (s.enter v).script = s.script := rfl
@[simp] theorem State.enter_outTrace (s : State) (v : Word) : (s.enter v).outTrace = s.outTrace := rfl
@[simp] theorem State.enter_sodTrace (s : State) (v : Word) : (s.enter v).sodTrace = s.sodTrace := rfl
@[simp] theorem State.enter_draws (s : State) (v : Word) : (s.enter v).draws = s.draws := rfl
@[simp] theorem State.enter_params (s : State) (v : Word) : (s.enter v).params = s.params := rfl
@[simp] theorem State.enter_regionAt (s : State) (v : Word) (x : Word) : (s.enter v).regionAt x = s.regionAt x := rfl

@[simp] theorem State.enter_ctl (s : State) (v : Word) : (s.enter v).ctl = s.ctl.acknowledged := rfl
@[simp] theorem State.enter_sp (s : State) (v : Word) : (s.enter v).sp = s.sp - 2 := rfl
@[simp] theorem State.enter_pc (s : State) (v : Word) : (s.enter v).pc = v := rfl
@[simp] theorem State.enter_readByte (s : State) (v : Word) (a : Word) : (s.enter v).readByte a = (s.push16 s.pc).readByte a := rfl

@[simp] theorem State.resetEvent_regs (s : State) : (s.resetEvent).regs = s.regs := rfl
@[simp] theorem State.resetEvent_flags (s : State) : (s.resetEvent).flags = s.flags := rfl
@[simp] theorem State.resetEvent_sp (s : State) : (s.resetEvent).sp = s.sp := rfl
@[simp] theorem State.resetEvent_mem (s : State) : (s.resetEvent).mem = s.mem := rfl
@[simp] theorem State.resetEvent_inputs (s : State) : (s.resetEvent).inputs = s.inputs := rfl
@[simp] theorem State.resetEvent_script (s : State) : (s.resetEvent).script = s.script := rfl
@[simp] theorem State.resetEvent_outTrace (s : State) : (s.resetEvent).outTrace = s.outTrace := rfl
@[simp] theorem State.resetEvent_sodTrace (s : State) : (s.resetEvent).sodTrace = s.sodTrace := rfl
@[simp] theorem State.resetEvent_draws (s : State) : (s.resetEvent).draws = s.draws := rfl
@[simp] theorem State.resetEvent_params (s : State) : (s.resetEvent).params = s.params := rfl
@[simp] theorem State.resetEvent_readByte (s : State) (x : Word) : (s.resetEvent).readByte x = s.readByte x := rfl
@[simp] theorem State.resetEvent_regionAt (s : State) (x : Word) : (s.resetEvent).regionAt x = s.regionAt x := rfl

@[simp] theorem State.resetEvent_ctl (s : State) : s.resetEvent.ctl = Control.afterReset := rfl
@[simp] theorem State.resetEvent_pc (s : State) : s.resetEvent.pc = s.params.resetPc := rfl

@[simp] theorem State.sample_regs (s : State) : (s.sample).regs = s.regs := rfl
@[simp] theorem State.sample_flags (s : State) : (s.sample).flags = s.flags := rfl
@[simp] theorem State.sample_sp (s : State) : (s.sample).sp = s.sp := rfl
@[simp] theorem State.sample_pc (s : State) : (s.sample).pc = s.pc := rfl
@[simp] theorem State.sample_mem (s : State) : (s.sample).mem = s.mem := rfl
@[simp] theorem State.sample_outTrace (s : State) : (s.sample).outTrace = s.outTrace := rfl
@[simp] theorem State.sample_sodTrace (s : State) : (s.sample).sodTrace = s.sodTrace := rfl
@[simp] theorem State.sample_draws (s : State) : (s.sample).draws = s.draws := rfl
@[simp] theorem State.sample_params (s : State) : (s.sample).params = s.params := rfl
@[simp] theorem State.sample_readByte (s : State) (x : Word) : (s.sample).readByte x = s.readByte x := rfl
@[simp] theorem State.sample_regionAt (s : State) (x : Word) : (s.sample).regionAt x = s.regionAt x := rfl

@[simp] theorem State.sample_inputs (s : State) : s.sample.inputs = s.nextInputs := rfl
@[simp] theorem State.sample_script (s : State) : s.sample.script = s.script.tail := rfl
@[simp] theorem State.sample_ctl (s : State) : s.sample.ctl = s.ctl.latch75 s.nextInputs.i75Event := rfl

@[simp] theorem State.begin_regs (s : State) : (s.begin).regs = s.regs := rfl
@[simp] theorem State.begin_flags (s : State) : (s.begin).flags = s.flags := rfl
@[simp] theorem State.begin_sp (s : State) : (s.begin).sp = s.sp := rfl
@[simp] theorem State.begin_pc (s : State) : (s.begin).pc = s.pc := rfl
@[simp] theorem State.begin_mem (s : State) : (s.begin).mem = s.mem := rfl
@[simp] theorem State.begin_inputs (s : State) : (s.begin).inputs = s.inputs := rfl
@[simp] theorem State.begin_script (s : State) : (s.begin).script = s.script := rfl
@[simp] theorem State.begin_outTrace (s : State) : (s.begin).outTrace = s.outTrace := rfl
@[simp] theorem State.begin_sodTrace (s : State) : (s.begin).sodTrace = s.sodTrace := rfl
@[simp] theorem State.begin_params (s : State) : (s.begin).params = s.params := rfl
@[simp] theorem State.begin_regionAt (s : State) (x : Word) : (s.begin).regionAt x = s.regionAt x := rfl

@[simp] theorem State.begin_draws (s : State) : s.begin.draws = s.draws + 1 := rfl
@[simp] theorem State.begin_eiShadow (s : State) : s.begin.ctl.eiShadow = false := rfl

/-! Registers and control flip-flops. -/

theorem Regs.get_set (g : Regs) (r q : Reg) (v : Byte) : (g.set r v).get q = if q = r then v else g.get q := by
  cases r <;> cases q <;> rfl

@[simp] theorem Regs.get_set_same (g : Regs) (r : Reg) (v : Byte) : (g.set r v).get r = v := by
  simp [Regs.get_set]

theorem Regs.get_set_other (g : Regs) (v : Byte) {r q : Reg} (h : q ≠ r) : (g.set r v).get q = g.get q := by
  simp [Regs.get_set, h]

@[simp] theorem Regs.set_a (g : Regs) (v : Byte) : (g.set .a v).a = v := rfl

theorem State.readReg_writeReg (s : State) (r q : Reg) (v : Byte) :
    (s.writeReg r v).readReg q = if q = r then v else s.readReg q := Regs.get_set _ _ _ _

theorem Control.latch75_eiShadow (c : Control) (e : Bool) : (c.latch75 e).eiShadow = c.eiShadow := rfl

theorem Control.acknowledged_eiShadow (c : Control) : c.acknowledged.eiShadow = false := rfl

end Sys2Proof.Machine
end

