-- ==== Sys2Proof/Laws/Memory.lean ====
section
/-! SUPPORT. The laws of memory: what a read gives after a write, that every operation keeps the canonical form, and what
each shared operation over memory does. -/

namespace Sys2Proof.Machine

/-! The list of cells. -/

theorem Memory.look_store_same (m : Memory) (a : Nat) (v : Byte) : Memory.look (Memory.store m a v) a = some v := by
  induction m with
  | nil => simp [Memory.store, Memory.look]
  | cons c m ih =>
    obtain ⟨b, w⟩ := c
    simp only [Memory.store]
    split
    · simp [Memory.look]
    · split
      · simp [Memory.look]
      · simp [Memory.look, *]

theorem Memory.look_store_other (m : Memory) (v : Byte) {a b : Nat} (h : b ≠ a) :
    Memory.look (Memory.store m a v) b = Memory.look m b := by
  induction m with
  | nil => simp [Memory.store, Memory.look, h]
  | cons c m ih =>
    obtain ⟨k, w⟩ := c
    simp only [Memory.store]
    split
    · simp [Memory.look, h]
    · split
      · subst_vars; simp [Memory.look, h]
      · simp [Memory.look, ih]

theorem Memory.mem_store {m : Memory} {a : Nat} {v : Byte} {c : Host.Cell} (h : c ∈ Memory.store m a v) :
    c = (a, v) ∨ c ∈ m := by
  induction m with
  | nil => simpa [Memory.store] using h
  | cons d m ih =>
    obtain ⟨k, w⟩ := d
    simp only [Memory.store] at h
    split at h
    · simpa using h
    · split at h
      · simp only [List.mem_cons] at h ⊢; tauto
      · simp only [List.mem_cons] at h ⊢
        rcases h with h | h
        · exact .inr (.inl h)
        · rcases ih h with h | h
          · exact .inl h
          · exact .inr (.inr h)

theorem Memory.wf_nil : Memory.wf [] := by simp [Memory.wf]

theorem Memory.store_wf {m : Memory} (hm : Memory.wf m) {a : Nat} (ha : a < 65536) (v : Byte) :
    Memory.wf (Memory.store m a v) := by
  refine ⟨?_, fun c hc => ?_⟩
  · have hp := hm.1
    clear hm
    induction m with
    | nil => simp [Memory.store]
    | cons c m ih =>
      obtain ⟨k, w⟩ := c
      rw [List.pairwise_cons] at hp
      simp only [Memory.store]
      split
      · rename_i hlt
        refine List.pairwise_cons.2 ⟨fun d hd => ?_, List.pairwise_cons.2 hp⟩
        rcases List.mem_cons.1 hd with rfl | hd
        · exact hlt
        · exact lt_trans hlt (hp.1 d hd)
      · split
        · subst_vars
          exact List.pairwise_cons.2 ⟨hp.1, hp.2⟩
        · refine List.pairwise_cons.2 ⟨fun d hd => ?_, ih hp.2⟩
          rcases Memory.mem_store hd with rfl | hd
          · simp only; omega
          · exact hp.1 d hd
  · rcases Memory.mem_store hc with rfl | hc
    · exact ha
    · exact hm.2 c hc

/-! One byte (20_memory.md R50, R51). -/

/-- A read depends on memory, the platform's map and the draw alone. -/
theorem State.readByte_congr {s t : State} (hm : t.mem = s.mem) (hp : t.params = s.params) (hd : t.draws = s.draws)
    (a : Word) : t.readByte a = s.readByte a := by
  simp only [State.readByte, State.regionAt, hm, hp, hd]

theorem State.readByte_ram {s : State} {a : Word} (h : s.regionAt a = .ram) :
    s.readByte a = (Memory.look s.mem a.toNat).getD (Config.powerUpByte a) := by
  simp [State.readByte, h]

/-- A store to RAM is read back. -/
theorem State.readByte_writeByte_same {s : State} {a : Word} (h : s.regionAt a = .ram) (v : Byte) :
    (s.writeByte a v).readByte a = v := by
  rw [State.readByte_ram (by simpa using h)]
  simp [State.memAfter, h, Memory.look_store_same]

/-- A store leaves every other address as it was. -/
theorem State.readByte_writeByte_other (s : State) (v : Byte) {a b : Word} (h : b ≠ a) :
    (s.writeByte a v).readByte b = s.readByte b := by
  have hn : b.toNat ≠ a.toNat := fun e => h (BitVec.eq_of_toNat_eq e)
  simp only [State.readByte, State.writeByte_regionAt, State.writeByte_mem, State.writeByte_draws, State.memAfter]
  cases s.regionAt b <;> cases s.regionAt a <;> simp [Memory.look_store_other _ _ hn]

/-- A store where there is no RAM changes nothing. -/
theorem State.writeByte_not_ram {s : State} {a : Word} (h : s.regionAt a ≠ .ram) (v : Byte) : s.writeByte a v = s := by
  have : s.memAfter a v = s.mem := by
    unfold State.memAfter
    split
    · contradiction
    · rfl
    · rfl
  simp [State.writeByte, State.withMem, this]

theorem State.memAfter_wf {s : State} (hm : Memory.wf s.mem) (a : Word) (v : Byte) : Memory.wf (s.memAfter a v) := by
  unfold State.memAfter
  split
  · exact Memory.store_wf hm a.isLt v
  · exact hm
  · exact hm

theorem State.writeByte_wf {s : State} (hm : Memory.wf s.mem) (a : Word) (v : Byte) :
    Memory.wf (s.writeByte a v).mem := State.memAfter_wf hm a v

/-! The stack primitives (20 R71, R72). -/

theorem sub_two_ne_sub_one (a : Word) : a - 2 ≠ a - 1 := by bv_omega

theorem add_one_ne_self (a : Word) : a + 1 ≠ a := by bv_omega

theorem State.push16_wf {s : State} (hm : Memory.wf s.mem) (w : Word) : Memory.wf (s.push16 w).mem :=
  State.writeByte_wf (State.writeByte_wf hm _ _) _ _

theorem State.push16_readByte_eq (s : State) (w a : Word) :
    (s.push16 w).readByte a = ((s.writeByte (s.sp - 1) (high w)).writeByte (s.sp - 2) (low w)).readByte a := rfl

/-- `Push16` leaves every byte but the two at SP - 1 and SP - 2. -/
theorem State.push16_readByte_other (s : State) (w : Word) {a : Word} (h1 : a ≠ s.sp - 1) (h2 : a ≠ s.sp - 2) :
    (s.push16 w).readByte a = s.readByte a := by
  rw [State.push16_readByte_eq, State.readByte_writeByte_other _ _ h2, State.readByte_writeByte_other _ _ h1]

/-- `Push16` puts the high-order byte at SP - 1. -/
theorem State.push16_readByte_high {s : State} (h : s.regionAt (s.sp - 1) = .ram) (w : Word) :
    (s.push16 w).readByte (s.sp - 1) = high w := by
  rw [State.push16_readByte_eq, State.readByte_writeByte_other _ _ (sub_two_ne_sub_one s.sp).symm,
    State.readByte_writeByte_same h]

/-- `Push16` puts the low-order byte at SP - 2. -/
theorem State.push16_readByte_low {s : State} (h : s.regionAt (s.sp - 2) = .ram) (w : Word) :
    (s.push16 w).readByte (s.sp - 2) = low w := by
  rw [State.push16_readByte_eq, State.readByte_writeByte_same (by simpa using h)]

/-- `Push16` leaves a byte that is not RAM. -/
theorem State.push16_readByte_not_ram {s : State} {a : Word} (h : s.regionAt a ≠ .ram) (w : Word) :
    (s.push16 w).readByte a = s.readByte a := by
  rw [State.push16_readByte_eq]
  by_cases h2 : a = s.sp - 2
  · subst h2
    rw [State.writeByte_not_ram (by simpa using h), State.readByte_writeByte_other _ _ (sub_two_ne_sub_one s.sp)]
  · rw [State.readByte_writeByte_other _ _ h2]
    by_cases h1 : a = s.sp - 1
    · subst h1
      rw [State.writeByte_not_ram h]
    · rw [State.readByte_writeByte_other _ _ h1]

/-! Byte order (20 R52, 00_scope.md R9). -/

theorem high_join (h l : Byte) : high (join h l) = h := by
  ext k hk
  simp only [high, join, BitVec.getElem_extractLsb', BitVec.getLsbD_append]
  rw [if_neg (by omega), Nat.add_sub_cancel_left, BitVec.getLsbD_eq_getElem hk]

theorem low_join (h l : Byte) : low (join h l) = l := by
  ext k hk
  simp only [low, join, BitVec.getElem_extractLsb', BitVec.getLsbD_append]
  rw [if_pos (by omega), Nat.zero_add, BitVec.getLsbD_eq_getElem hk]

theorem join_toNat (h l : Byte) : (join h l).toNat = 256 * h.toNat + l.toNat := by
  have hl : l.toNat < 2 ^ 8 := l.isLt
  have e : (join h l).toNat = h.toNat <<< 8 ||| l.toNat := BitVec.toNat_append h l
  rw [e, ← Nat.shiftLeft_add_eq_or_of_lt hl, Nat.shiftLeft_eq]
  omega

theorem high_toNat (w : Word) : (high w).toNat = w.toNat / 256 := by
  have hw := w.isLt
  simp only [high, BitVec.extractLsb'_toNat, Nat.shiftRight_eq_div_pow]
  omega

theorem low_toNat (w : Word) : (low w).toNat = w.toNat % 256 := by
  simp only [low, BitVec.extractLsb'_toNat, Nat.shiftRight_zero]

theorem join_high_low (w : Word) : join (high w) (low w) = w := by
  apply BitVec.eq_of_toNat_eq
  rw [join_toNat, high_toNat, low_toNat]
  omega

end Sys2Proof.Machine
end

