-- ==== Sys2Proof/Laws/Abandon.lean ====
section
/-! SUPPORT. What performing a list of accesses, and a reset inside an instruction or an entry, can do
(Machine/Bus.lean, Machine/Abandon.lean). -/

namespace Sys2Proof.Machine

open Config (IntSource)

/-! A list of accesses. -/

/-- Accesses change memory and the output events alone. -/
theorem State.applyAccess_eq (s : State) (x : Access) :
    s.applyAccess x = (s.withMem (s.applyAccess x).mem).withOutTrace (s.applyAccess x).outTrace := by
  cases x <;> rfl

theorem State.applyAccesses_eq (s : State) (l : List Access) :
    s.applyAccesses l = (s.withMem (s.applyAccesses l).mem).withOutTrace (s.applyAccesses l).outTrace := by
  induction l generalizing s with
  | nil => rfl
  | cons x l ih =>
    obtain ⟨t, ht, he⟩ : ∃ t, s.applyAccess x = t ∧ t = (s.withMem t.mem).withOutTrace t.outTrace :=
      ⟨_, rfl, State.applyAccess_eq s x⟩
    simp only [State.applyAccesses, List.foldl_cons, ht]
    refine (ih t).trans ?_
    rw [he]
    rfl

theorem State.applyAccess_wf {s : State} (hm : Memory.wf s.mem) (x : Access) : Memory.wf (s.applyAccess x).mem := by
  cases x with
  | write a v => exact State.writeByte_wf hm a v
  | read a => exact hm
  | input port => exact hm
  | output port v => exact hm

theorem State.applyAccesses_wf {s : State} (hm : Memory.wf s.mem) (l : List Access) :
    Memory.wf (s.applyAccesses l).mem := by
  induction l generalizing s with
  | nil => exact hm
  | cons x l ih => exact ih (State.applyAccess_wf hm x)

/-- An address that none of the accesses writes reads as before. -/
theorem State.applyAccesses_readByte_other (s : State) (l : List Access) {a : Word} (h : ∀ v, .write a v ∉ l) :
    (s.applyAccesses l).readByte a = s.readByte a := by
  induction l generalizing s with
  | nil => rfl
  | cons x l ih =>
    change ((s.applyAccess x).applyAccesses l).readByte a = _
    rw [ih _ fun v hv => h v (List.mem_cons_of_mem _ hv)]
    cases x with
    | write b v => exact State.readByte_writeByte_other _ _ (by rintro rfl; exact h v List.mem_cons_self)
    | read b => rfl
    | input port => rfl
    | output port v => rfl

/-! A list of accesses cut short. -/

/-- The write under way changes memory alone. -/
theorem State.applyTorn_eq (s : State) (x : Option Access) (v : Option Byte) :
    s.applyTorn x v = s.withMem (s.applyTorn x v).mem := by
  unfold State.applyTorn
  split <;> rfl

theorem State.applyTorn_wf {s : State} (hm : Memory.wf s.mem) (x : Option Access) (v : Option Byte) :
    Memory.wf (s.applyTorn x v).mem := by
  unfold State.applyTorn
  split
  · exact State.writeByte_wf hm _ _
  all_goals exact hm

/-- A write that has not begun leaves every byte. -/
theorem State.applyTorn_none (s : State) (x : Option Access) : s.applyTorn x none = s := by
  unfold State.applyTorn
  split <;> first | rfl | contradiction

/-- The write under way leaves every address but its own. -/
theorem State.applyTorn_readByte_other (s : State) (x : Option Access) (v : Option Byte) {a : Word}
    (h : ∀ w, x ≠ some (.write a w)) : (s.applyTorn x v).readByte a = s.readByte a := by
  unfold State.applyTorn
  split
  · exact State.readByte_writeByte_other _ _ (by rintro rfl; exact h _ rfl)
  all_goals rfl

/-- A cut changes memory and the output events alone. -/
theorem State.applyCut_eq (s : State) (l : List Access) (c : Cut) :
    s.applyCut l c = (s.withMem (s.applyCut l c).mem).withOutTrace (s.applyCut l c).outTrace := by
  unfold State.applyCut
  rw [State.applyTorn_eq, State.applyAccesses_eq]
  rfl

@[simp] theorem State.applyCut_outTrace (s : State) (l : List Access) (c : Cut) :
    (s.applyCut l c).outTrace = (s.applyAccesses (l.take c.done)).outTrace := by
  unfold State.applyCut
  rw [State.applyTorn_eq]
  rfl

theorem State.applyCut_wf {s : State} (hm : Memory.wf s.mem) (l : List Access) (c : Cut) :
    Memory.wf (s.applyCut l c).mem :=
  State.applyTorn_wf (State.applyAccesses_wf hm _) _ _

/-- Every address but that of the write under way reads as the completed accesses leave it. -/
theorem State.applyCut_readByte (s : State) (l : List Access) (c : Cut) {a : Word}
    (h : ∀ w, l[c.done]? ≠ some (.write a w)) :
    (s.applyCut l c).readByte a = (s.applyAccesses (l.take c.done)).readByte a :=
  State.applyTorn_readByte_other _ _ _ h

@[simp] theorem State.applyCut_params (s : State) (l : List Access) (c : Cut) : (s.applyCut l c).params = s.params := by
  rw [State.applyCut_eq]; rfl
@[simp] theorem State.applyCut_sodTrace (s : State) (l : List Access) (c : Cut) :
    (s.applyCut l c).sodTrace = s.sodTrace := by
  rw [State.applyCut_eq]; rfl
@[simp] theorem State.applyCut_draws (s : State) (l : List Access) (c : Cut) : (s.applyCut l c).draws = s.draws := by
  rw [State.applyCut_eq]; rfl
@[simp] theorem State.applyCut_inputs (s : State) (l : List Access) (c : Cut) : (s.applyCut l c).inputs = s.inputs := by
  rw [State.applyCut_eq]; rfl
@[simp] theorem State.applyCut_script (s : State) (l : List Access) (c : Cut) : (s.applyCut l c).script = s.script := by
  rw [State.applyCut_eq]; rfl
@[simp] theorem State.applyCut_regs (s : State) (l : List Access) (c : Cut) : (s.applyCut l c).regs = s.regs := by
  rw [State.applyCut_eq]; rfl
@[simp] theorem State.applyCut_flags (s : State) (l : List Access) (c : Cut) : (s.applyCut l c).flags = s.flags := by
  rw [State.applyCut_eq]; rfl
@[simp] theorem State.applyCut_regionAt (s : State) (l : List Access) (c : Cut) (a : Word) :
    (s.applyCut l c).regionAt a = s.regionAt a := by
  rw [State.applyCut_eq]; rfl

/-! What is left of the registers. -/

theorem Regs.replace_get_other (g new : Regs) {rs : List Reg} {r : Reg} (h : r ∉ rs) :
    (g.replace new rs).get r = g.get r := by
  unfold Regs.replace
  induction rs generalizing g with
  | nil => rfl
  | cons q rs ih =>
    rw [List.mem_cons, not_or] at h
    rw [List.foldl_cons, ih _ h.2, Regs.get_set_other _ _ h.1]

theorem Regs.replace_get_mem (g new : Regs) {rs : List Reg} {r : Reg} (h : r ∈ rs) :
    (g.replace new rs).get r = new.get r := by
  unfold Regs.replace
  induction rs generalizing g with
  | nil => cases h
  | cons q rs ih =>
    rw [List.foldl_cons]
    by_cases hr : r ∈ rs
    · exact ih _ hr
    · obtain rfl : r = q := by simpa [hr] using h
      have := Regs.replace_get_other (g.set r (new.get r)) new hr
      rw [Regs.replace] at this
      rw [this, Regs.get_set_same]

/-! An abandoned instruction, an abandoned entry, and the reset that abandons them. -/

@[simp] theorem State.abandon_regs (s : State) (i : Instr) (c : Cut) :
    (s.abandon i c).regs = s.regs.replace c.regs (regsWritten i) := rfl
@[simp] theorem State.abandon_flags (s : State) (i : Instr) (c : Cut) :
    (s.abandon i c).flags = s.flags.replace c.flags (flagsWritten i) := rfl
@[simp] theorem State.abandon_sp (s : State) (i : Instr) (c : Cut) :
    (s.abandon i c).sp = if spWritten i && taken i s.flags then c.sp else s.sp := rfl
@[simp] theorem State.abandon_mem (s : State) (i : Instr) (c : Cut) :
    (s.abandon i c).mem = (s.applyCut (s.accesses i).tail c).mem := rfl
@[simp] theorem State.abandon_outTrace (s : State) (i : Instr) (c : Cut) :
    (s.abandon i c).outTrace = (s.applyCut (s.accesses i).tail c).outTrace := rfl
@[simp] theorem State.abandon_readByte (s : State) (i : Instr) (c : Cut) (a : Word) :
    (s.abandon i c).readByte a = (s.applyCut (s.accesses i).tail c).readByte a := rfl
@[simp] theorem State.abandon_params (s : State) (i : Instr) (c : Cut) : (s.abandon i c).params = s.params :=
  State.applyCut_params _ _ _
@[simp] theorem State.abandon_sodTrace (s : State) (i : Instr) (c : Cut) : (s.abandon i c).sodTrace = s.sodTrace :=
  State.applyCut_sodTrace _ _ _
@[simp] theorem State.abandon_draws (s : State) (i : Instr) (c : Cut) : (s.abandon i c).draws = s.draws :=
  State.applyCut_draws _ _ _
@[simp] theorem State.abandon_inputs (s : State) (i : Instr) (c : Cut) : (s.abandon i c).inputs = s.inputs :=
  State.applyCut_inputs _ _ _
@[simp] theorem State.abandon_script (s : State) (i : Instr) (c : Cut) : (s.abandon i c).script = s.script :=
  State.applyCut_script _ _ _

@[simp] theorem State.abandonEntry_sp (s : State) (c : Cut) : (s.abandonEntry c).sp = c.sp := rfl
@[simp] theorem State.abandonEntry_mem (s : State) (c : Cut) :
    (s.abandonEntry c).mem = (s.applyCut (s.pushAccesses s.pc) c).mem := rfl
@[simp] theorem State.abandonEntry_readByte (s : State) (c : Cut) (a : Word) :
    (s.abandonEntry c).readByte a = (s.applyCut (s.pushAccesses s.pc) c).readByte a := rfl
@[simp] theorem State.abandonEntry_regs (s : State) (c : Cut) : (s.abandonEntry c).regs = s.regs :=
  State.applyCut_regs _ _ _
@[simp] theorem State.abandonEntry_flags (s : State) (c : Cut) : (s.abandonEntry c).flags = s.flags :=
  State.applyCut_flags _ _ _
@[simp] theorem State.abandonEntry_params (s : State) (c : Cut) : (s.abandonEntry c).params = s.params :=
  State.applyCut_params _ _ _
@[simp] theorem State.abandonEntry_sodTrace (s : State) (c : Cut) : (s.abandonEntry c).sodTrace = s.sodTrace :=
  State.applyCut_sodTrace _ _ _
@[simp] theorem State.abandonEntry_draws (s : State) (c : Cut) : (s.abandonEntry c).draws = s.draws :=
  State.applyCut_draws _ _ _
@[simp] theorem State.abandonEntry_inputs (s : State) (c : Cut) : (s.abandonEntry c).inputs = s.inputs :=
  State.applyCut_inputs _ _ _
@[simp] theorem State.abandonEntry_script (s : State) (c : Cut) : (s.abandonEntry c).script = s.script :=
  State.applyCut_script _ _ _

/-- An abandoned entry makes no output: a push has none. -/
@[simp] theorem State.abandonEntry_outTrace (s : State) (c : Cut) : (s.abandonEntry c).outTrace = s.outTrace := by
  change (s.applyCut (s.pushAccesses s.pc) c).outTrace = s.outTrace
  rw [State.applyCut_outTrace]
  rcases c.done with _ | _ | n
  · rfl
  · rfl
  · rw [State.pushAccesses, List.take_of_length_le (by simp)]
    rfl

theorem State.abandon_wf {s : State} (hm : Memory.wf s.mem) (i : Instr) (c : Cut) : Memory.wf (s.abandon i c).mem :=
  State.applyCut_wf hm _ _

theorem State.abandonEntry_wf {s : State} (hm : Memory.wf s.mem) (c : Cut) : Memory.wf (s.abandonEntry c).mem :=
  State.applyCut_wf hm _ _

/-- A reset inside an instruction answers a next state exactly where the instruction would, and then is the reset event on
what is left of it. -/
theorem State.resetInRun_next {s u : State} (h : exec s.instrAt s = .next u) (c : Cut) :
    s.resetInRun c = .next (s.abandon s.instrAt c).resetEvent := by
  simp only [State.resetInRun, h]

theorem State.resetInRun_cases {s t : State} {c : Cut} (h : s.resetInRun c = .next t) :
    (∃ u, exec s.instrAt s = .next u) ∧ t = (s.abandon s.instrAt c).resetEvent := by
  unfold State.resetInRun at h
  split at h
  · exact ⟨⟨_, by assumption⟩, by cases h; rfl⟩
  · cases h
  · cases h

/-- The same for a reset inside an interrupt entry. -/
theorem State.resetInEntry_next {s u : State} {src : IntSource} (h : s.entry src = .next u) (c : Cut) :
    s.resetInEntry src c = .next (s.abandonEntry c).resetEvent := by
  simp only [State.resetInEntry, h]

theorem State.resetInEntry_cases {s t : State} {src : IntSource} {c : Cut} (h : s.resetInEntry src c = .next t) :
    (∃ u, s.entry src = .next u) ∧ t = (s.abandonEntry c).resetEvent := by
  unfold State.resetInEntry at h
  split at h
  · exact ⟨⟨_, by assumption⟩, by cases h; rfl⟩
  · cases h
  · cases h

end Sys2Proof.Machine
end

