-- ==== Sys2Proof/Laws/Flags.lean ====
section
/-! SUPPORT. What each flag computation and each byte operation gives, in the words of 10_state.md R28 and R29, so that no
later proof unfolds one; and what the shared result operations over State do. -/

namespace Sys2Proof.Machine

theorem bit_eq (v : Byte) (k : Nat) : bit v k = v.getLsbD k := rfl

/-- P is set exactly when the number of 1 bits is even (00_scope.md R11). -/
theorem parityEven_iff (v : Byte) :
    parityEven v = true ↔ Even (Finset.univ.filter fun k : Fin 8 => v.getLsbD k = true).card := by
  revert v
  decide +kernel

/-- A number mod 256 as a byte. -/
theorem byte_ofNat_eq {n : Nat} {v : Byte} (h : n % 256 = v.toNat) : BitVec.ofNat 8 n = v :=
  BitVec.eq_of_toNat_eq (by rw [BitVec.toNat_ofNat]; exact h)

/-- S, Z and P computed from a byte say what 10 R28 says. -/
theorem flagsOf_of_szp {v : Byte} {f : Flags} (hs : f.s = bit v 7) (hz : f.z = (v == 0#8)) (hp : f.p = parityEven v) :
    FlagsOf v f :=
  ⟨hs, by rw [hz, beq_iff_eq]; rfl, by rw [hp]; exact parityEven_iff v⟩

theorem add8_value (x y : Byte) (c : Bool) : (add8 x y c).value = x + y + BitVec.ofNat 8 c.toNat := by
  apply byte_ofNat_eq
  simp only [BitVec.toNat_add, BitVec.toNat_ofNat]
  omega

/-- The flags of an addition (41_arithmetic.md R141). -/
theorem add8_flags (x y : Byte) (c : Bool) : FlagsOfSum x y c (add8 x y c).flags := by
  refine ⟨?_, ?_, ?_⟩
  · rw [← add8_value]
    exact flagsOf_of_szp rfl rfl rfl
  · exact decide_eq_true_iff.trans (by omega)
  · exact decide_eq_true_iff.trans (by simp only [lowNibble]; omega)

theorem sub8_value (zn : Bool) (x y : Byte) (c : Bool) :
    (sub8 zn x y c).value = x - y - BitVec.ofNat 8 c.toNat := by
  apply BitVec.eq_of_toNat_eq
  have hx := x.isLt
  have hy := y.isLt
  simp only [sub8, BitVec.toNat_ofInt, BitVec.toNat_sub, BitVec.toNat_ofNat]
  cases c <;> simp only [Bool.toNat_true, Bool.toNat_false] <;> omega

/-- The flags of a subtraction (41 R148). -/
theorem sub8_flags (zn : Bool) (x y : Byte) (c : Bool) : FlagsOfDifference zn x y c (sub8 zn x y c).flags := by
  refine ⟨?_, ?_, fun h => ?_, fun h => ?_⟩
  · rw [← sub8_value zn]
    exact flagsOf_of_szp rfl rfl rfl
  · exact decide_eq_true_iff
  · exact if_pos h
  · have e : (sub8 zn x y c).flags.ac = decide (lowNibble x ≥ lowNibble y + c.toNat) := if_neg h
    rw [e]
    exact decide_eq_true_iff

theorem inc8_value (f : Flags) (v : Byte) : (inc8 f v).value = v + 1 := by
  apply byte_ofNat_eq
  simp only [BitVec.toNat_add]
  rfl

theorem dec8_value (f : Flags) (v : Byte) : (dec8 f v).value = v - 1 := by
  apply BitVec.eq_of_toNat_eq
  have hv := v.isLt
  have h1 : (1 : Byte).toNat = 1 := rfl
  simp only [dec8, BitVec.toNat_ofInt, BitVec.toNat_sub, h1]
  omega

/-- The flags of an increment (41 R155). -/
theorem inc8_flags (f : Flags) (v : Byte) :
    FlagsOf (v + 1) (inc8 f v).flags ∧ ((inc8 f v).flags.ac = true ↔ v.toNat % 16 = 15) ∧ (inc8 f v).flags.cy = f.cy := by
  refine ⟨?_, ?_, rfl⟩
  · rw [← inc8_value f]
    exact flagsOf_of_szp rfl rfl rfl
  · simp [inc8, Flags.szp, lowNibble]

/-- The flags of a decrement (41 R157). -/
theorem dec8_flags (f : Flags) (v : Byte) :
    FlagsOf (v - 1) (dec8 f v).flags ∧ ((dec8 f v).flags.ac = true ↔ v.toNat % 16 ≠ 0) ∧ (dec8 f v).flags.cy = f.cy := by
  refine ⟨?_, ?_, rfl⟩
  · rw [← dec8_value f]
    exact flagsOf_of_szp rfl rfl rfl
  · simp [dec8, Flags.szp, lowNibble]

/-- The flags of a logic instruction (42_logical.md R170). -/
theorem logic8_flags (ac : Bool) (v : Byte) : FlagsOfLogic ac v (logic8 ac v).flags :=
  ⟨flagsOf_of_szp rfl rfl rfl, rfl, rfl⟩

/-- The flag byte holds each flag at its place, and the unused bits where 10 R30 puts them. -/
theorem flags_toByte_bits (f : Flags) (u : BitVec 3) :
    (f.toByte u).getLsbD 7 = f.s ∧ (f.toByte u).getLsbD 6 = f.z ∧ (f.toByte u).getLsbD 5 = u.getLsbD 2 ∧
      (f.toByte u).getLsbD 4 = f.ac ∧ (f.toByte u).getLsbD 3 = u.getLsbD 1 ∧ (f.toByte u).getLsbD 2 = f.p ∧
      (f.toByte u).getLsbD 1 = u.getLsbD 0 ∧ (f.toByte u).getLsbD 0 = f.cy := by
  obtain ⟨s, z, ac, p, cy⟩ := f
  simp only [Flags.toByte]
  generalize u.getLsbD 2 = u2
  generalize u.getLsbD 1 = u1
  generalize u.getLsbD 0 = u0
  revert s z u2 ac u1 p u0 cy
  decide +kernel

/-- A byte made of eight bits has them, D7 first. -/
theorem byteOfBits_bits (b7 b6 b5 b4 b3 b2 b1 b0 : Bool) (k : Nat) :
    (byteOfBits b7 b6 b5 b4 b3 b2 b1 b0).getLsbD k = [b0, b1, b2, b3, b4, b5, b6, b7].getD k false := by
  by_cases hk : k < 8
  · interval_cases k <;> revert b7 b6 b5 b4 b3 b2 b1 b0 <;> decide +kernel
  · rw [BitVec.getLsbD_of_ge _ _ (by omega), List.getD_eq_default _ _ (by simpa using hk)]

/-- A flag byte read back gives the flags, whatever its unused bits are (44_stack_io_control.md R242, R244). -/
theorem Flags.ofByte_toByte (f : Flags) (u : BitVec 3) : Flags.ofByte (f.toByte u) = f := by
  obtain ⟨h7, h6, -, h4, -, h2, -, h0⟩ := flags_toByte_bits f u
  simp only [Flags.ofByte, bit_eq, h7, h6, h4, h2, h0]

/-! The result operations over State. -/

@[simp] theorem State.aluResult_regs (s : State) (r : AluResult) (n : Nat) :
    (s.aluResult r n).regs = s.regs.set .a r.value := rfl
@[simp] theorem State.aluResult_flags (s : State) (r : AluResult) (n : Nat) : (s.aluResult r n).flags = r.flags := rfl
@[simp] theorem State.aluResult_pc (s : State) (r : AluResult) (n : Nat) :
    (s.aluResult r n).pc = s.pc + BitVec.ofNat 16 n := rfl
@[simp] theorem State.compareResult_regs (s : State) (r : AluResult) (n : Nat) : (s.compareResult r n).regs = s.regs := rfl
@[simp] theorem State.compareResult_flags (s : State) (r : AluResult) (n : Nat) :
    (s.compareResult r n).flags = r.flags := rfl
@[simp] theorem State.rotateResult_regs (s : State) (r : Byte × Bool) :
    (s.rotateResult r).regs = s.regs.set .a r.1 := rfl
@[simp] theorem State.rotateResult_flags (s : State) (r : Byte × Bool) :
    (s.rotateResult r).flags = s.flags.withCy r.2 := rfl

/-- A state whose other fields are all as before keeps everything but the registers written. -/
theorem keeps_of_fields {rs : List Reg} {as : List Word} {s t : State} (hr : KeepsRegs rs s t) (hm : t.mem = s.mem) (hc : t.ctl = s.ctl)
    (ho : t.outTrace = s.outTrace) (hq : t.sodTrace = s.sodTrace) (hw : KeepsWorld s t) :
    Keeps rs as s t :=
  ⟨hr, fun a _ => State.readByte_congr hm hw.2.2.2 hw.2.2.1 a, ⟨hc, ho, hq⟩, hw⟩

/-- Writing one register keeps the others. -/
theorem keepsRegs_set {s t : State} {r : Reg} {v : Byte} (h : t.regs = s.regs.set r v) : KeepsRegs [r] s t := by
  intro q hq
  simp only [State.readReg, h]
  exact Regs.get_set_other _ _ (by simpa using hq)

/-- What an instruction that ends in `aluResult` does: A, the flags and PC, and nothing else. -/
theorem aluResult_spec (s : State) (r : AluResult) (n : Nat) : Keeps [.a] [] s (s.aluResult r n) :=
  keeps_of_fields (keepsRegs_set rfl) rfl rfl rfl rfl ⟨rfl, rfl, rfl, rfl⟩

/-- What an instruction that ends in `compareResult` does: the flags and PC, and nothing else. -/
theorem compareResult_spec (s : State) (r : AluResult) (n : Nat) : Keeps [] [] s (s.compareResult r n) :=
  keeps_of_fields (fun _ _ => rfl) rfl rfl rfl rfl ⟨rfl, rfl, rfl, rfl⟩

/-- What a rotate does: A, the flags and PC, and nothing else. -/
theorem rotateResult_spec (s : State) (r : Byte × Bool) : Keeps [.a] [] s (s.rotateResult r) :=
  keeps_of_fields (keepsRegs_set rfl) rfl rfl rfl rfl ⟨rfl, rfl, rfl, rfl⟩

end Sys2Proof.Machine
end

