-- ==== Sys2Proof/Laws/PerInstr.lean ====
section
/-! SUPPORT. The family `EncodingLength`: the first byte of an instruction's encoding decides its length (30_encoding.md R80,
R98). One lemma per instruction. -/

namespace Sys2Proof.Laws.EncodingLength

/-- The encoding of the instruction has a first byte, and the length that byte stands for is the encoding's. -/
def Statement (i : Instr) : Prop :=
  i.WellFormed → ∃ op rest, encode i = op :: rest ∧ lengthOf op = rest.length + 1

theorem movRR (rd : Reg) (rs : Reg) : Statement (.movRR rd rs) := by
  intro _
  cases rd <;> cases rs <;> exact ⟨_, _, rfl, rfl⟩

theorem movRM (rd : Reg) : Statement (.movRM rd) := by
  intro _
  cases rd <;> exact ⟨_, _, rfl, rfl⟩

theorem movMR (rs : Reg) : Statement (.movMR rs) := by
  intro _
  cases rs <;> exact ⟨_, _, rfl, rfl⟩

theorem mviR (rd : Reg) (v : Byte) : Statement (.mviR rd v) := by
  intro _
  cases rd <;> exact ⟨_, _, rfl, rfl⟩

theorem mviM (v : Byte) : Statement (.mviM v) := fun _ => ⟨_, _, rfl, rfl⟩

theorem lxi (p : Pair) (w : Word) : Statement (.lxi p w) := by
  intro _
  cases p <;> exact ⟨_, _, rfl, rfl⟩

theorem lda (a : Word) : Statement (.lda a) := fun _ => ⟨_, _, rfl, rfl⟩

theorem sta (a : Word) : Statement (.sta a) := fun _ => ⟨_, _, rfl, rfl⟩

theorem ldax (p : Pair) : Statement (.ldax p) := by
  intro h
  cases p <;> first | exact ⟨_, _, rfl, rfl⟩ | cases h

theorem stax (p : Pair) : Statement (.stax p) := by
  intro h
  cases p <;> first | exact ⟨_, _, rfl, rfl⟩ | cases h

theorem lhld (a : Word) : Statement (.lhld a) := fun _ => ⟨_, _, rfl, rfl⟩

theorem shld (a : Word) : Statement (.shld a) := fun _ => ⟨_, _, rfl, rfl⟩

theorem xchg : Statement .xchg := fun _ => ⟨_, _, rfl, rfl⟩

theorem addR (rs : Reg) : Statement (.addR rs) := by
  intro _
  cases rs <;> exact ⟨_, _, rfl, rfl⟩

theorem addM : Statement .addM := fun _ => ⟨_, _, rfl, rfl⟩

theorem adcR (rs : Reg) : Statement (.adcR rs) := by
  intro _
  cases rs <;> exact ⟨_, _, rfl, rfl⟩

theorem adcM : Statement .adcM := fun _ => ⟨_, _, rfl, rfl⟩

theorem subR (rs : Reg) : Statement (.subR rs) := by
  intro _
  cases rs <;> exact ⟨_, _, rfl, rfl⟩

theorem subM : Statement .subM := fun _ => ⟨_, _, rfl, rfl⟩

theorem sbbR (rs : Reg) : Statement (.sbbR rs) := by
  intro _
  cases rs <;> exact ⟨_, _, rfl, rfl⟩

theorem sbbM : Statement .sbbM := fun _ => ⟨_, _, rfl, rfl⟩

theorem anaR (rs : Reg) : Statement (.anaR rs) := by
  intro _
  cases rs <;> exact ⟨_, _, rfl, rfl⟩

theorem anaM : Statement .anaM := fun _ => ⟨_, _, rfl, rfl⟩

theorem xraR (rs : Reg) : Statement (.xraR rs) := by
  intro _
  cases rs <;> exact ⟨_, _, rfl, rfl⟩

theorem xraM : Statement .xraM := fun _ => ⟨_, _, rfl, rfl⟩

theorem oraR (rs : Reg) : Statement (.oraR rs) := by
  intro _
  cases rs <;> exact ⟨_, _, rfl, rfl⟩

theorem oraM : Statement .oraM := fun _ => ⟨_, _, rfl, rfl⟩

theorem cmpR (rs : Reg) : Statement (.cmpR rs) := by
  intro _
  cases rs <;> exact ⟨_, _, rfl, rfl⟩

theorem cmpM : Statement .cmpM := fun _ => ⟨_, _, rfl, rfl⟩

theorem adi (v : Byte) : Statement (.adi v) := fun _ => ⟨_, _, rfl, rfl⟩

theorem aci (v : Byte) : Statement (.aci v) := fun _ => ⟨_, _, rfl, rfl⟩

theorem sui (v : Byte) : Statement (.sui v) := fun _ => ⟨_, _, rfl, rfl⟩

theorem sbi (v : Byte) : Statement (.sbi v) := fun _ => ⟨_, _, rfl, rfl⟩

theorem ani (v : Byte) : Statement (.ani v) := fun _ => ⟨_, _, rfl, rfl⟩

theorem xri (v : Byte) : Statement (.xri v) := fun _ => ⟨_, _, rfl, rfl⟩

theorem ori (v : Byte) : Statement (.ori v) := fun _ => ⟨_, _, rfl, rfl⟩

theorem cpi (v : Byte) : Statement (.cpi v) := fun _ => ⟨_, _, rfl, rfl⟩

theorem inrR (rd : Reg) : Statement (.inrR rd) := by
  intro _
  cases rd <;> exact ⟨_, _, rfl, rfl⟩

theorem inrM : Statement .inrM := fun _ => ⟨_, _, rfl, rfl⟩

theorem dcrR (rd : Reg) : Statement (.dcrR rd) := by
  intro _
  cases rd <;> exact ⟨_, _, rfl, rfl⟩

theorem dcrM : Statement .dcrM := fun _ => ⟨_, _, rfl, rfl⟩

theorem inx (p : Pair) : Statement (.inx p) := by
  intro _
  cases p <;> exact ⟨_, _, rfl, rfl⟩

theorem dcx (p : Pair) : Statement (.dcx p) := by
  intro _
  cases p <;> exact ⟨_, _, rfl, rfl⟩

theorem dad (p : Pair) : Statement (.dad p) := by
  intro _
  cases p <;> exact ⟨_, _, rfl, rfl⟩

theorem daa : Statement .daa := fun _ => ⟨_, _, rfl, rfl⟩

theorem rlc : Statement .rlc := fun _ => ⟨_, _, rfl, rfl⟩

theorem rrc : Statement .rrc := fun _ => ⟨_, _, rfl, rfl⟩

theorem ral : Statement .ral := fun _ => ⟨_, _, rfl, rfl⟩

theorem rar : Statement .rar := fun _ => ⟨_, _, rfl, rfl⟩

theorem cma : Statement .cma := fun _ => ⟨_, _, rfl, rfl⟩

theorem cmc : Statement .cmc := fun _ => ⟨_, _, rfl, rfl⟩

theorem stc : Statement .stc := fun _ => ⟨_, _, rfl, rfl⟩

theorem jmp (a : Word) : Statement (.jmp a) := fun _ => ⟨_, _, rfl, rfl⟩

theorem jnz (a : Word) : Statement (.jnz a) := fun _ => ⟨_, _, rfl, rfl⟩

theorem jz (a : Word) : Statement (.jz a) := fun _ => ⟨_, _, rfl, rfl⟩

theorem jnc (a : Word) : Statement (.jnc a) := fun _ => ⟨_, _, rfl, rfl⟩

theorem jc (a : Word) : Statement (.jc a) := fun _ => ⟨_, _, rfl, rfl⟩

theorem jpo (a : Word) : Statement (.jpo a) := fun _ => ⟨_, _, rfl, rfl⟩

theorem jpe (a : Word) : Statement (.jpe a) := fun _ => ⟨_, _, rfl, rfl⟩

theorem jp (a : Word) : Statement (.jp a) := fun _ => ⟨_, _, rfl, rfl⟩

theorem jm (a : Word) : Statement (.jm a) := fun _ => ⟨_, _, rfl, rfl⟩

theorem call (a : Word) : Statement (.call a) := fun _ => ⟨_, _, rfl, rfl⟩

theorem cnz (a : Word) : Statement (.cnz a) := fun _ => ⟨_, _, rfl, rfl⟩

theorem cz (a : Word) : Statement (.cz a) := fun _ => ⟨_, _, rfl, rfl⟩

theorem cnc (a : Word) : Statement (.cnc a) := fun _ => ⟨_, _, rfl, rfl⟩

theorem cc (a : Word) : Statement (.cc a) := fun _ => ⟨_, _, rfl, rfl⟩

theorem cpo (a : Word) : Statement (.cpo a) := fun _ => ⟨_, _, rfl, rfl⟩

theorem cpe (a : Word) : Statement (.cpe a) := fun _ => ⟨_, _, rfl, rfl⟩

theorem cp (a : Word) : Statement (.cp a) := fun _ => ⟨_, _, rfl, rfl⟩

theorem cm (a : Word) : Statement (.cm a) := fun _ => ⟨_, _, rfl, rfl⟩

theorem ret : Statement .ret := fun _ => ⟨_, _, rfl, rfl⟩

theorem rnz : Statement .rnz := fun _ => ⟨_, _, rfl, rfl⟩

theorem rz : Statement .rz := fun _ => ⟨_, _, rfl, rfl⟩

theorem rnc : Statement .rnc := fun _ => ⟨_, _, rfl, rfl⟩

theorem rc : Statement .rc := fun _ => ⟨_, _, rfl, rfl⟩

theorem rpo : Statement .rpo := fun _ => ⟨_, _, rfl, rfl⟩

theorem rpe : Statement .rpe := fun _ => ⟨_, _, rfl, rfl⟩

theorem rp : Statement .rp := fun _ => ⟨_, _, rfl, rfl⟩

theorem rm : Statement .rm := fun _ => ⟨_, _, rfl, rfl⟩

theorem rst (n : Nat) : Statement (.rst n) := by
  intro h
  have hn : n < 8 := of_decide_eq_true h
  interval_cases n <;> exact ⟨_, _, rfl, rfl⟩

theorem pchl : Statement .pchl := fun _ => ⟨_, _, rfl, rfl⟩

theorem pushRp (p : Pair) : Statement (.pushRp p) := by
  intro _
  cases p <;> exact ⟨_, _, rfl, rfl⟩

theorem pushPsw : Statement .pushPsw := fun _ => ⟨_, _, rfl, rfl⟩

theorem popRp (p : Pair) : Statement (.popRp p) := by
  intro _
  cases p <;> exact ⟨_, _, rfl, rfl⟩

theorem popPsw : Statement .popPsw := fun _ => ⟨_, _, rfl, rfl⟩

theorem xthl : Statement .xthl := fun _ => ⟨_, _, rfl, rfl⟩

theorem sphl : Statement .sphl := fun _ => ⟨_, _, rfl, rfl⟩

theorem inPort (port : Byte) : Statement (.inPort port) := fun _ => ⟨_, _, rfl, rfl⟩

theorem outPort (port : Byte) : Statement (.outPort port) := fun _ => ⟨_, _, rfl, rfl⟩

theorem ei : Statement .ei := fun _ => ⟨_, _, rfl, rfl⟩

theorem di : Statement .di := fun _ => ⟨_, _, rfl, rfl⟩

theorem nop : Statement .nop := fun _ => ⟨_, _, rfl, rfl⟩

theorem hlt : Statement .hlt := fun _ => ⟨_, _, rfl, rfl⟩

theorem rim : Statement .rim := fun _ => ⟨_, _, rfl, rfl⟩

theorem sim : Statement .sim := fun _ => ⟨_, _, rfl, rfl⟩

theorem undefined08 : Statement .undefined08 := fun _ => ⟨_, _, rfl, rfl⟩

theorem undefined10 : Statement .undefined10 := fun _ => ⟨_, _, rfl, rfl⟩

theorem undefined18 : Statement .undefined18 := fun _ => ⟨_, _, rfl, rfl⟩

theorem undefined28 : Statement .undefined28 := fun _ => ⟨_, _, rfl, rfl⟩

theorem undefined38 : Statement .undefined38 := fun _ => ⟨_, _, rfl, rfl⟩

theorem undefinedCB : Statement .undefinedCB := fun _ => ⟨_, _, rfl, rfl⟩

theorem undefinedD9 : Statement .undefinedD9 := fun _ => ⟨_, _, rfl, rfl⟩

theorem undefinedDD : Statement .undefinedDD := fun _ => ⟨_, _, rfl, rfl⟩

theorem undefinedED : Statement .undefinedED := fun _ => ⟨_, _, rfl, rfl⟩

theorem undefinedFD : Statement .undefinedFD := fun _ => ⟨_, _, rfl, rfl⟩

end Sys2Proof.Laws.EncodingLength
end

