-- ==== Sys2Proof/Laws/Results.lean ====
section
/-! SUPPORT. What each shared operation of the meanings gives, in the shapes of Safety.lean: one lemma per operation, which
later proofs cite with the equation `exec i s = .next …` of the instruction (true by `rfl`). -/

namespace Sys2Proof.Machine

/-! Loads, stores, pairs. -/

/-- An instruction that ends in one register write. -/
theorem loadsReg_of {i : Instr} {s : State} {r : Reg} {v : Byte} {n : Nat}
    (h : exec i s = .next ((s.writeReg r v).advance n)) : LoadsReg i s r v n :=
  ⟨_, h, Regs.get_set_same _ _ _, rfl, rfl, rfl,
    keeps_of_fields (keepsRegs_set rfl) rfl rfl rfl rfl ⟨rfl, rfl, rfl, rfl⟩⟩

/-- Memory after one byte written, outside that byte. -/
theorem keepsBytes_of_writeByte {s t : State} {a : Word} {v : Byte}
    (h : ∀ b, t.readByte b = (s.writeByte a v).readByte b) : KeepsBytes [a] s t := by
  intro b hb
  rw [h, State.readByte_writeByte_other _ _ (by simpa using hb)]

/-- An instruction that ends in one byte written. -/
theorem storesByte_of {i : Instr} {s : State} {a : Word} {v : Byte} {n : Nat}
    (h : exec i s = .next ((s.writeByte a v).advance n)) : StoresByte i s a v n :=
  ⟨_, h, fun hr => (State.advance_readByte _ _ _).trans (State.readByte_writeByte_same hr v),
    fun hr => (State.advance_readByte _ _ _).trans (by rw [State.writeByte_not_ram hr]), rfl, rfl, rfl,
    fun _ _ => rfl, keepsBytes_of_writeByte fun _ => rfl, ⟨rfl, rfl, rfl⟩, ⟨rfl, rfl, rfl, rfl⟩⟩

/-- A pair written is read back (10_state.md R23). -/
theorem State.readPair_writePair (s : State) (p : Pair) (w : Word) : (s.writePair p w).readPair p = w := by
  cases p
  case sp => rfl
  all_goals exact join_high_low w

/-- Writing a pair keeps the registers outside it. -/
theorem keepsRegs_writePair {s t : State} {p : Pair} {w : Word} (h : t.regs = (s.writePair p w).regs) :
    KeepsRegs (pairRegs p) s t := by
  intro r hr
  simp only [State.readReg, h]
  cases p <;> cases r <;> first | rfl | exact absurd hr (by decide)

/-! Results in the accumulator and the flags. -/

theorem setsAccumulator_of {i : Instr} {s : State} {r : AluResult} {n : Nat} {v : Byte} {F : Flags → Prop}
    (h : exec i s = .next (s.aluResult r n)) (hv : r.value = v) (hf : F r.flags) : SetsAccumulator i s v F n :=
  ⟨_, h, hv, hf, rfl, rfl, aluResult_spec s r n⟩

/-! Transfers of control. -/

theorem jumpsTo_of {i : Instr} {s : State} {a : Word} (h : exec i s = .next (s.withPc a)) : JumpsTo i s a :=
  ⟨_, h, rfl, rfl, rfl, keeps_of_fields (fun _ _ => rfl) rfl rfl rfl rfl ⟨rfl, rfl, rfl, rfl⟩⟩

/-- A state whose memory is that of `Push16` has the value on its stack. -/
theorem pushed_of {s t : State} {w : Word} (h : ∀ a, t.readByte a = (s.push16 w).readByte a) (hs : t.sp = s.sp - 2) :
    Pushed s t w :=
  ⟨fun hr => (h _).trans (State.push16_readByte_high hr w), fun hr => (h _).trans (State.push16_readByte_low hr w),
    fun hr => (h _).trans (State.push16_readByte_not_ram hr w),
    fun hr => (h _).trans (State.push16_readByte_not_ram hr w), hs⟩

/-- A state whose memory is that of `Push16` keeps every byte but the two stored. -/
theorem keepsBytes_of_push16 {s t : State} {w : Word} (h : ∀ a, t.readByte a = (s.push16 w).readByte a) :
    KeepsBytes [s.sp - 1, s.sp - 2] s t := by
  intro a ha
  simp only [List.mem_cons, not_or, List.not_mem_nil, not_false_eq_true, and_true] at ha
  rw [h, State.push16_readByte_other _ _ ha.1 ha.2]

theorem callsTo_of {i : Instr} {s : State} {a r : Word} (h : exec i s = .next (s.callTo a r)) : CallsTo i s a r :=
  ⟨_, h, rfl, pushed_of (fun _ => rfl) rfl, rfl, fun _ _ => rfl, keepsBytes_of_push16 fun _ => rfl, ⟨rfl, rfl, rfl⟩,
    ⟨rfl, rfl, rfl, rfl⟩⟩

theorem returns_of {i : Instr} {s : State} (h : exec i s = .next s.returnFrom) : Returns i s :=
  ⟨_, h, rfl, rfl, rfl, keeps_of_fields (fun _ _ => rfl) rfl rfl rfl rfl ⟨rfl, rfl, rfl, rfl⟩⟩

/-- What `Pop16` returns where both bytes of a `Push16` in RAM are still there. -/
theorem State.top16_of_pushed {s t : State} {w : Word} (h1 : s.regionAt (s.sp - 1) = .ram)
    (h2 : s.regionAt (s.sp - 2) = .ram) (hs : t.sp = s.sp - 2)
    (e1 : t.readByte (s.sp - 1) = (s.push16 w).readByte (s.sp - 1))
    (e2 : t.readByte (s.sp - 2) = (s.push16 w).readByte (s.sp - 2)) : t.top16 = w := by
  have hsp : s.sp - 2 + 1 = s.sp - 1 := by bv_omega
  rw [State.top16, State.readWord, hs, hsp, e1, e2, State.push16_readByte_high h1, State.push16_readByte_low h2,
    join_high_low]

theorem exec_condJump (cc : Cond) (a : Word) (s : State) : exec (condJump cc a) s = .next (s.jumpIf cc a) := by
  cases cc <;> rfl

theorem exec_condCall (cc : Cond) (a : Word) (s : State) : exec (condCall cc a) s = .next (s.callIf cc a) := by
  cases cc <;> rfl

theorem exec_condReturn (cc : Cond) (s : State) : exec (condReturn cc) s = .next (s.returnIf cc) := by
  cases cc <;> rfl

end Sys2Proof.Machine
end

