-- ==== Sys2Proof/Laws/Step.lean ====
section
/-! SUPPORT. What each shared operation of the machine as a whole can do: the choice at a boundary, an entry, a step, and
the placing of an instruction. -/

namespace Sys2Proof.Machine

open Config (IntSource)

/-! The boundary (60_exceptions.md R276). -/

theorem State.accepted_candidate {s : State} {src : IntSource} (h : s.accepted = some src) : s.candidate src = true :=
  List.find?_some h

theorem State.accepted_effective {s : State} {src : IntSource} (h : s.accepted = some src) : s.effective src = true :=
  (Bool.and_eq_true_iff.1 (State.accepted_candidate h)).1

/-- No source is accepted exactly when none of those in the order of priority is a candidate. -/
theorem State.accepted_none {s : State} : s.accepted = none ↔ ∀ src ∈ s.params.priority, s.candidate src = false := by
  simp [State.accepted, List.find?_eq_none]

/-- What happens in a step, from what decides it. -/
theorem State.boundary_cases (s : State) :
    (s.boundary = .reset ∧
      (s.inputs.reset = true ∨ (s.accepted = none ∧ s.ctl.halted = true ∧ ∃ c, s.inputs.cut = some c))) ∨
    (∃ src, s.boundary = .enter src ∧ s.inputs.reset = false ∧ s.accepted = some src ∧ s.inputs.cut = none) ∨
    (s.boundary = .stayHalted ∧ s.inputs.reset = false ∧ s.accepted = none ∧ s.ctl.halted = true ∧
      s.inputs.cut = none) ∨
    (s.boundary = .run ∧ s.inputs.reset = false ∧ s.accepted = none ∧ s.ctl.halted = false ∧ s.inputs.cut = none) ∨
    (∃ src c, s.boundary = .resetInEntry src c ∧ s.inputs.reset = false ∧ s.accepted = some src ∧
      s.inputs.cut = some c) ∨
    (∃ c, s.boundary = .resetInRun c ∧ s.inputs.reset = false ∧ s.accepted = none ∧ s.ctl.halted = false ∧
      s.inputs.cut = some c) := by
  unfold State.boundary State.choice
  cases hr : s.inputs.reset <;> cases ha : s.accepted <;> cases hh : s.ctl.halted <;> cases hc : s.inputs.cut <;>
    simp [Boundary.cutBy]

theorem State.boundary_reset {s : State} (h : s.inputs.reset = true) : s.boundary = .reset := by
  unfold State.boundary State.choice
  cases s.inputs.cut <;> simp [h, Boundary.cutBy]

theorem State.boundary_accepted {s : State} {src : IntSource} (h : s.inputs.reset = false) (ha : s.accepted = some src) :
    s.boundary = (Boundary.enter src).cutBy s.inputs.cut := by
  simp [State.boundary, State.choice, h, ha]

theorem State.boundary_enter {s : State} {src : IntSource} (h : s.inputs.reset = false) (hc : s.inputs.cut = none)
    (ha : s.accepted = some src) : s.boundary = .enter src := by
  rw [State.boundary_accepted h ha, hc]; rfl

theorem State.boundary_resetInEntry {s : State} {src : IntSource} {c : Cut} (h : s.inputs.reset = false)
    (hc : s.inputs.cut = some c) (ha : s.accepted = some src) : s.boundary = .resetInEntry src c := by
  rw [State.boundary_accepted h ha, hc]; rfl

theorem State.boundary_idle {s : State} (h : s.inputs.reset = false) (ha : s.accepted = none) :
    s.boundary = (if s.ctl.halted then Boundary.stayHalted else .run).cutBy s.inputs.cut := by
  simp [State.boundary, State.choice, h, ha]

/-! Entry (60 R278, R279). -/

/-- A completed entry goes to the source's restart address, or to the one of the inserted RST byte. The last case, an
external entry without a byte, arises at no boundary: without a byte there is no external request. -/
theorem State.entry_cases {s t : State} {src : IntSource} (h : s.entry src = .next t) :
    (∃ v, vectorOf src = some v ∧ t = (s.withCtl (s.ctl.served src)).enter v) ∨
    (∃ op v, src = .external ∧ s.inputs.extOp = some op ∧ insertedVector op = some v ∧ t = s.enter v) ∨
    (src = .external ∧ s.inputs.extOp = none ∧ t = s) := by
  unfold State.entry at h
  split at h
  · rename_i v hv
    exact .inl ⟨v, hv, by cases h; rfl⟩
  · rename_i op hv ho
    refine .inr (.inl ?_)
    unfold State.enterInserted at h
    split at h
    · rename_i v hi
      exact ⟨op, v, by cases src <;> simp_all [vectorOf], ho, hi, by cases h; rfl⟩
    · cases h
  · rename_i hv ho
    exact .inr (.inr ⟨by cases src <;> simp_all [vectorOf], ho, by cases h; rfl⟩)

theorem State.entry_internal {s : State} {src : IntSource} {v : Word} (h : vectorOf src = some v) :
    s.entry src = .next ((s.withCtl (s.ctl.served src)).enter v) := by
  simp only [State.entry, h]

theorem State.entry_external {s : State} {op : Byte} (h : s.inputs.extOp = some op) :
    s.entry .external = s.enterInserted op := by
  simp only [State.entry, vectorOf, h]

theorem State.enterInserted_some {s : State} {op : Byte} {v : Word} (h : insertedVector op = some v) :
    s.enterInserted op = .next (s.enter v) := by
  simp only [State.enterInserted, h]

theorem State.enterInserted_none {s : State} {op : Byte} (h : insertedVector op = none) :
    s.enterInserted op = .refused (.insertedNotRst op) := by
  simp only [State.enterInserted, h]

/-- An entry pushes PC and changes nothing else in memory. -/
theorem State.enter_readByte_other (s : State) (v : Word) {a : Word} (h1 : a ≠ s.sp - 1) (h2 : a ≠ s.sp - 2) :
    (s.enter v).readByte a = s.readByte a := by
  rw [State.enter_readByte]
  exact State.push16_readByte_other s s.pc h1 h2

/-- An entry leaves the return address where `Push16` leaves it. -/
theorem State.enter_pushed (s : State) (v : Word) : Pushed s (s.enter v) s.pc :=
  ⟨fun h => (State.enter_readByte s v _).trans (State.push16_readByte_high h s.pc),
    fun h => (State.enter_readByte s v _).trans (State.push16_readByte_low h s.pc),
    fun h => (State.enter_readByte s v _).trans (State.push16_readByte_not_ram h s.pc),
    fun h => (State.enter_readByte s v _).trans (State.push16_readByte_not_ram h s.pc), rfl⟩

theorem State.enter_wf {s : State} (hm : Memory.wf s.mem) (v : Word) : Memory.wf (s.enter v).mem :=
  State.push16_wf (s := s.withCtl s.ctl.acknowledged) hm s.pc

/-! The step (60 R276). -/

/-- Everything a step that answers a next state can have done. -/
theorem step_cases {s t : State} (h : step s = .next t) :
    (s.sample.boundary = .reset ∧ t = s.sample.resetEvent) ∨
    (∃ src, s.sample.boundary = .enter src ∧ s.sample.entry src = .next t) ∨
    (s.sample.boundary = .stayHalted ∧ t = s.sample) ∨
    (s.sample.boundary = .run ∧ exec s.sample.begin.instrAt s.sample.begin = .next t) ∨
    (∃ src c, s.sample.boundary = .resetInEntry src c ∧ t = (s.sample.abandonEntry c).resetEvent) ∨
    (∃ c, s.sample.boundary = .resetInRun c ∧
      t = (s.sample.begin.abandon s.sample.begin.instrAt c).resetEvent) := by
  unfold step at h
  split at h
  · exact .inl ⟨by assumption, by cases h; rfl⟩
  · exact .inr (.inl ⟨_, by assumption, h⟩)
  · exact .inr (.inr (.inl ⟨by assumption, by cases h; rfl⟩))
  · exact .inr (.inr (.inr (.inl ⟨by assumption, h⟩)))
  · exact .inr (.inr (.inr (.inr (.inl ⟨_, _, by assumption, (State.resetInEntry_cases h).2⟩))))
  · exact .inr (.inr (.inr (.inr (.inr ⟨_, by assumption, (State.resetInRun_cases h).2⟩))))

theorem step_reset {s : State} (h : s.sample.boundary = .reset) : step s = .next s.sample.resetEvent := by
  simp only [step, h]

theorem step_enter {s : State} {src : IntSource} (h : s.sample.boundary = .enter src) :
    step s = s.sample.entry src := by
  simp only [step, h]

theorem step_stayHalted {s : State} (h : s.sample.boundary = .stayHalted) : step s = .next s.sample := by
  simp only [step, h]

theorem step_run {s : State} (h : s.sample.boundary = .run) :
    step s = exec s.sample.begin.instrAt s.sample.begin := by
  simp only [step, h]

theorem step_resetInEntry {s : State} {src : IntSource} {c : Cut} (h : s.sample.boundary = .resetInEntry src c) :
    step s = s.sample.resetInEntry src c := by
  simp only [step, h]

theorem step_resetInRun {s : State} {c : Cut} (h : s.sample.boundary = .resetInRun c) :
    step s = s.sample.begin.resetInRun c := by
  simp only [step, h]

/-! Canonical memory. -/

theorem State.reset_mem_wf : Memory.wf State.reset.mem := Memory.wf_nil

theorem Memory.place3_wf {m : Memory} (hm : Memory.wf m) (a : Word) (b1 b2 b3 : Byte) :
    Memory.wf (Memory.place3 m a b1 b2 b3) :=
  Memory.store_wf (Memory.store_wf (Memory.store_wf hm a.isLt b1) (a + 1).isLt b2) (a + 2).isLt b3

/-! Placing an instruction. -/

/-- Three bytes placed are read back at their addresses. -/
theorem Memory.look_place3 (m : Memory) (a : Word) (b1 b2 b3 : Byte) :
    Memory.look (Memory.place3 m a b1 b2 b3) a.toNat = some b1 ∧
      Memory.look (Memory.place3 m a b1 b2 b3) (a + 1).toNat = some b2 ∧
      Memory.look (Memory.place3 m a b1 b2 b3) (a + 2).toNat = some b3 := by
  have h1 : a.toNat ≠ (a + 1).toNat := by bv_omega
  have h2 : a.toNat ≠ (a + 2).toNat := by bv_omega
  have h3 : (a + 1).toNat ≠ (a + 2).toNat := by bv_omega
  simp only [Memory.place3]
  rw [Memory.look_store_other _ _ h2, Memory.look_store_other _ _ h1, Memory.look_store_same,
    Memory.look_store_other _ _ h3, Memory.look_store_same, Memory.look_store_same]
  simp

@[simp] theorem State.placeInstr_pc (s : State) (b1 b2 b3 : Byte) : (s.placeInstr b1 b2 b3).pc = s.pc := rfl
@[simp] theorem State.placeInstr_script (s : State) (b1 b2 b3 : Byte) :
    (s.placeInstr b1 b2 b3).script = quietNext s.script := rfl
@[simp] theorem State.placeInstr_inputs (s : State) (b1 b2 b3 : Byte) : (s.placeInstr b1 b2 b3).inputs = s.inputs := rfl
@[simp] theorem State.placeInstr_halted (s : State) (b1 b2 b3 : Byte) :
    (s.placeInstr b1 b2 b3).ctl.halted = false := rfl
@[simp] theorem State.placeInstr_ie (s : State) (b1 b2 b3 : Byte) : (s.placeInstr b1 b2 b3).ctl.ie = s.ctl.ie := rfl
@[simp] theorem State.placeInstr_m75 (s : State) (b1 b2 b3 : Byte) : (s.placeInstr b1 b2 b3).ctl.m75 = s.ctl.m75 := rfl
@[simp] theorem State.placeInstr_ff75 (s : State) (b1 b2 b3 : Byte) :
    (s.placeInstr b1 b2 b3).ctl.ff75 = (s.ctl.ff75 && !(s.ctl.ie && !s.ctl.m75)) := rfl

/-- A range left in the map leaves the address present. -/
theorem mem_present {rs : List Config.Region} {a : Word} {r : Config.Region} (h : r ∈ present rs a)
    (hr : holds r a = true) : r.kind ≠ .absent := by
  simp only [present, List.mem_filter, hr, Bool.true_and, Bool.not_eq_true', beq_eq_false_iff_ne] at h
  exact h.2

theorem mem_of_mem_present {rs : List Config.Region} {a : Word} {r : Config.Region} (h : r ∈ present rs a) : r ∈ rs :=
  (List.mem_filter.1 h).1

/-- After placing, none of the three addresses is absent. -/
theorem State.placeInstr_regionAt (s : State) (b1 b2 b3 : Byte) {x : Word}
    (hx : x = s.pc ∨ x = s.pc + 1 ∨ x = s.pc + 2) : (s.placeInstr b1 b2 b3).regionAt x ≠ .absent := by
  unfold State.regionAt
  split
  · rename_i r hf
    have hh : holds r x = true := by simpa using List.find?_some hf
    have hm : r ∈ present (present (present s.params.regions s.pc) (s.pc + 1)) (s.pc + 2) := List.mem_of_find?_eq_some hf
    rcases hx with rfl | rfl | rfl
    · exact mem_present (mem_of_mem_present (mem_of_mem_present hm)) hh
    · exact mem_present (mem_of_mem_present hm) hh
    · exact mem_present hm hh
  · simp

/-- A byte of an address that is not absent is the one memory lists. -/
theorem State.readByte_of_look {s : State} {a : Word} {v : Byte} (h : s.regionAt a ≠ .absent)
    (hl : Memory.look s.mem a.toNat = some v) : s.readByte a = v := by
  unfold State.readByte
  split
  · contradiction
  · simp [hl]
  · simp [hl]

/-- The placed bytes are those at PC, PC + 1 and PC + 2. -/
theorem State.placeInstr_readByte (s : State) (b1 b2 b3 : Byte) :
    (s.placeInstr b1 b2 b3).readByte s.pc = b1 ∧ (s.placeInstr b1 b2 b3).readByte (s.pc + 1) = b2 ∧
      (s.placeInstr b1 b2 b3).readByte (s.pc + 2) = b3 := by
  obtain ⟨h1, h2, h3⟩ := Memory.look_place3 s.mem s.pc b1 b2 b3
  exact ⟨State.readByte_of_look (State.placeInstr_regionAt s b1 b2 b3 (.inl rfl)) h1,
    State.readByte_of_look (State.placeInstr_regionAt s b1 b2 b3 (.inr (.inl rfl))) h2,
    State.readByte_of_look (State.placeInstr_regionAt s b1 b2 b3 (.inr (.inr rfl))) h3⟩

end Sys2Proof.Machine
end

