-- ==== Sys2Proof/Machine/Source.lean ====
section
/-! DEFINITION. The source form of an instruction (30_encoding.md R100 to R103): its mnemonic, and the statement that names it,
with one operand after another and numbers in hexadecimal. No meaning reads it. -/

namespace Sys2Proof.Machine

/-- The mnemonic (30 R102). The ten first bytes without an instruction have none; they are written as the opcode table writes
them. -/
def mnemonicOf : Instr → String
  | .movRR _ _ | .movRM _ | .movMR _ => "MOV"
  | .mviR _ _ | .mviM _ => "MVI"
  | .lxi _ _ => "LXI"
  | .lda _ => "LDA"
  | .sta _ => "STA"
  | .ldax _ => "LDAX"
  | .stax _ => "STAX"
  | .lhld _ => "LHLD"
  | .shld _ => "SHLD"
  | .xchg => "XCHG"
  | .addR _ | .addM => "ADD"
  | .adcR _ | .adcM => "ADC"
  | .subR _ | .subM => "SUB"
  | .sbbR _ | .sbbM => "SBB"
  | .anaR _ | .anaM => "ANA"
  | .xraR _ | .xraM => "XRA"
  | .oraR _ | .oraM => "ORA"
  | .cmpR _ | .cmpM => "CMP"
  | .adi _ => "ADI"
  | .aci _ => "ACI"
  | .sui _ => "SUI"
  | .sbi _ => "SBI"
  | .ani _ => "ANI"
  | .xri _ => "XRI"
  | .ori _ => "ORI"
  | .cpi _ => "CPI"
  | .inrR _ | .inrM => "INR"
  | .dcrR _ | .dcrM => "DCR"
  | .inx _ => "INX"
  | .dcx _ => "DCX"
  | .dad _ => "DAD"
  | .daa => "DAA"
  | .rlc => "RLC"
  | .rrc => "RRC"
  | .ral => "RAL"
  | .rar => "RAR"
  | .cma => "CMA"
  | .cmc => "CMC"
  | .stc => "STC"
  | .jmp _ => "JMP"
  | .jnz _ => "JNZ"
  | .jz _ => "JZ"
  | .jnc _ => "JNC"
  | .jc _ => "JC"
  | .jpo _ => "JPO"
  | .jpe _ => "JPE"
  | .jp _ => "JP"
  | .jm _ => "JM"
  | .call _ => "CALL"
  | .cnz _ => "CNZ"
  | .cz _ => "CZ"
  | .cnc _ => "CNC"
  | .cc _ => "CC"
  | .cpo _ => "CPO"
  | .cpe _ => "CPE"
  | .cp _ => "CP"
  | .cm _ => "CM"
  | .ret => "RET"
  | .rnz => "RNZ"
  | .rz => "RZ"
  | .rnc => "RNC"
  | .rc => "RC"
  | .rpo => "RPO"
  | .rpe => "RPE"
  | .rp => "RP"
  | .rm => "RM"
  | .rst _ => "RST"
  | .pchl => "PCHL"
  | .pushRp _ | .pushPsw => "PUSH"
  | .popRp _ | .popPsw => "POP"
  | .xthl => "XTHL"
  | .sphl => "SPHL"
  | .inPort _ => "IN"
  | .outPort _ => "OUT"
  | .ei => "EI"
  | .di => "DI"
  | .nop => "NOP"
  | .hlt => "HLT"
  | .rim => "RIM"
  | .sim => "SIM"
  | .undefined08 | .undefined10 | .undefined18 | .undefined28 | .undefined38
  | .undefinedCB | .undefinedD9 | .undefinedDD | .undefinedED | .undefinedFD =>
    "UNDEFINED"

/-- The digit of a number below 16. -/
def hexDigit (n : Nat) : Char := if n < 10 then Char.ofNat (48 + n) else Char.ofNat (55 + n)

/-- The hexadecimal digits of a number, as many as asked for, the high-order one first. -/
def hexDigits : Nat → Nat → List Char
  | 0, _ => []
  | k + 1, n => hexDigits k (n / 16) ++ [hexDigit (n % 16)]

/-- A number in source: hexadecimal with a trailing `H`, and a leading 0 before a letter (30 R101). -/
def numberText (digits n : Nat) : String :=
  let ds := hexDigits digits n
  String.ofList ((if ds.head?.any Char.isAlpha then '0' :: ds else ds) ++ ['H'])

/-- A register (30 R101). -/
def regText : Reg → String
  | .a => "A"
  | .b => "B"
  | .c => "C"
  | .d => "D"
  | .e => "E"
  | .h => "H"
  | .l => "L"

/-- A register pair is named by its high-order register (30 R101). -/
def pairText : Pair → String
  | .bc => "B"
  | .de => "D"
  | .hl => "H"
  | .sp => "SP"

def byteText (v : Byte) : String := numberText 2 v.toNat

def wordText (w : Word) : String := numberText 4 w.toNat

/-- The operands in source, in order; the destination of MOV and MVI first (30 R101, R102). -/
def operandTexts : Instr → List String
  | .movRR rd rs => [regText rd, regText rs]
  | .movRM rd => [regText rd, "M"]
  | .movMR rs => ["M", regText rs]
  | .mviR rd v => [regText rd, byteText v]
  | .mviM v => ["M", byteText v]
  | .lxi p w => [pairText p, wordText w]
  | .lda a => [wordText a]
  | .sta a => [wordText a]
  | .ldax p => [pairText p]
  | .stax p => [pairText p]
  | .lhld a => [wordText a]
  | .shld a => [wordText a]
  | .addR rs => [regText rs]
  | .addM => ["M"]
  | .adcR rs => [regText rs]
  | .adcM => ["M"]
  | .subR rs => [regText rs]
  | .subM => ["M"]
  | .sbbR rs => [regText rs]
  | .sbbM => ["M"]
  | .anaR rs => [regText rs]
  | .anaM => ["M"]
  | .xraR rs => [regText rs]
  | .xraM => ["M"]
  | .oraR rs => [regText rs]
  | .oraM => ["M"]
  | .cmpR rs => [regText rs]
  | .cmpM => ["M"]
  | .adi v => [byteText v]
  | .aci v => [byteText v]
  | .sui v => [byteText v]
  | .sbi v => [byteText v]
  | .ani v => [byteText v]
  | .xri v => [byteText v]
  | .ori v => [byteText v]
  | .cpi v => [byteText v]
  | .inrR rd => [regText rd]
  | .inrM => ["M"]
  | .dcrR rd => [regText rd]
  | .dcrM => ["M"]
  | .inx p => [pairText p]
  | .dcx p => [pairText p]
  | .dad p => [pairText p]
  | .jmp a => [wordText a]
  | .jnz a => [wordText a]
  | .jz a => [wordText a]
  | .jnc a => [wordText a]
  | .jc a => [wordText a]
  | .jpo a => [wordText a]
  | .jpe a => [wordText a]
  | .jp a => [wordText a]
  | .jm a => [wordText a]
  | .call a => [wordText a]
  | .cnz a => [wordText a]
  | .cz a => [wordText a]
  | .cnc a => [wordText a]
  | .cc a => [wordText a]
  | .cpo a => [wordText a]
  | .cpe a => [wordText a]
  | .cp a => [wordText a]
  | .cm a => [wordText a]
  | .rst n => [toString n]
  | .pushRp p => [pairText p]
  | .pushPsw => ["PSW"]
  | .popRp p => [pairText p]
  | .popPsw => ["PSW"]
  | .inPort port => [byteText port]
  | .outPort port => [byteText port]
  | .xchg | .daa | .rlc | .rrc | .ral | .rar | .cma | .cmc | .stc | .ret | .rnz | .rz | .rnc | .rc
  | .rpo | .rpe | .rp | .rm | .pchl | .xthl | .sphl | .ei | .di | .nop | .hlt | .rim | .sim
  | .undefined08 | .undefined10 | .undefined18 | .undefined28 | .undefined38 | .undefinedCB
  | .undefinedD9 | .undefinedDD | .undefinedED | .undefinedFD =>
    []

/-- The source statement: the mnemonic and, after a space, the operands separated by commas (30 R100). -/
def sourceOf (i : Instr) : String :=
  match operandTexts i with
  | [] => mnemonicOf i
  | o :: os => mnemonicOf i ++ " " ++ os.foldl (fun t x => t ++ "," ++ x) o

end Sys2Proof.Machine
end

