-- ==== Sys2Proof/Tests/Slice0.lean ====
section
/-! SUPPORT. Small tests, each of one step or one decoding, with its source; and, for each statement that has hypotheses, a
state that meets them. Expected values come from 95_test_vectors.md (their ids, V-… and D-…, stand in the comments) or from
the rule named. -/

namespace Sys2Proof.Tests

open Sys2Proof.Machine
open Sys2Proof.Config (IntSource)

/-! Well-formedness (30_encoding.md R84, R89, R102): each check refuses an ill-formed term. -/

theorem test_wellformed_ldax : (Instr.ldax .hl).wellFormed = false ∧ (Instr.ldax .de).wellFormed = true := by decide

theorem test_wellformed_stax : (Instr.stax .sp).wellFormed = false ∧ (Instr.stax .bc).wellFormed = true := by decide

theorem test_wellformed_push : (Instr.pushRp .sp).wellFormed = false ∧ (Instr.pushRp .hl).wellFormed = true := by decide

theorem test_wellformed_pop : (Instr.popRp .sp).wellFormed = false ∧ (Instr.popRp .hl).wellFormed = true := by decide

theorem test_wellformed_rst : (Instr.rst 8).wellFormed = false ∧ (Instr.rst 7).wellFormed = true := by decide

/-! Decoding: the complete map of the first byte as 30 R94 prints it, each with the bytes 34, 12 after it. -/

/-- The sixteen instructions of one row of the map. -/
def mapRow (op : Byte) : List Instr := (List.range 16).map fun k => instrOf (op + BitVec.ofNat 8 k) 0x34#8 0x12#8

theorem test_map_0x :
  mapRow 0x00#8 =
    [.nop, .lxi .bc 0x1234#16, .stax .bc, .inx .bc, .inrR .b, .dcrR .b, .mviR .b 0x34#8, .rlc, .undefined08,
     .dad .bc, .ldax .bc, .dcx .bc, .inrR .c, .dcrR .c, .mviR .c 0x34#8, .rrc] := by
  decide

theorem test_map_1x :
  mapRow 0x10#8 =
    [.undefined10, .lxi .de 0x1234#16, .stax .de, .inx .de, .inrR .d, .dcrR .d, .mviR .d 0x34#8, .ral,
     .undefined18, .dad .de, .ldax .de, .dcx .de, .inrR .e, .dcrR .e, .mviR .e 0x34#8, .rar] := by
  decide

theorem test_map_2x :
  mapRow 0x20#8 =
    [.rim, .lxi .hl 0x1234#16, .shld 0x1234#16, .inx .hl, .inrR .h, .dcrR .h, .mviR .h 0x34#8, .daa,
     .undefined28, .dad .hl, .lhld 0x1234#16, .dcx .hl, .inrR .l, .dcrR .l, .mviR .l 0x34#8, .cma] := by
  decide

theorem test_map_3x :
  mapRow 0x30#8 =
    [.sim, .lxi .sp 0x1234#16, .sta 0x1234#16, .inx .sp, .inrM, .dcrM, .mviM 0x34#8, .stc, .undefined38,
     .dad .sp, .lda 0x1234#16, .dcx .sp, .inrR .a, .dcrR .a, .mviR .a 0x34#8, .cmc] := by
  decide

theorem test_map_4x :
  mapRow 0x40#8 =
    [.movRR .b .b, .movRR .b .c, .movRR .b .d, .movRR .b .e, .movRR .b .h, .movRR .b .l, .movRM .b,
     .movRR .b .a, .movRR .c .b, .movRR .c .c, .movRR .c .d, .movRR .c .e, .movRR .c .h, .movRR .c .l,
     .movRM .c, .movRR .c .a] := by
  decide

theorem test_map_5x :
  mapRow 0x50#8 =
    [.movRR .d .b, .movRR .d .c, .movRR .d .d, .movRR .d .e, .movRR .d .h, .movRR .d .l, .movRM .d,
     .movRR .d .a, .movRR .e .b, .movRR .e .c, .movRR .e .d, .movRR .e .e, .movRR .e .h, .movRR .e .l,
     .movRM .e, .movRR .e .a] := by
  decide

theorem test_map_6x :
  mapRow 0x60#8 =
    [.movRR .h .b, .movRR .h .c, .movRR .h .d, .movRR .h .e, .movRR .h .h, .movRR .h .l, .movRM .h,
     .movRR .h .a, .movRR .l .b, .movRR .l .c, .movRR .l .d, .movRR .l .e, .movRR .l .h, .movRR .l .l,
     .movRM .l, .movRR .l .a] := by
  decide

theorem test_map_7x :
  mapRow 0x70#8 =
    [.movMR .b, .movMR .c, .movMR .d, .movMR .e, .movMR .h, .movMR .l, .hlt, .movMR .a, .movRR .a .b,
     .movRR .a .c, .movRR .a .d, .movRR .a .e, .movRR .a .h, .movRR .a .l, .movRM .a, .movRR .a .a] := by
  decide

theorem test_map_8x :
  mapRow 0x80#8 =
    [.addR .b, .addR .c, .addR .d, .addR .e, .addR .h, .addR .l, .addM, .addR .a, .adcR .b, .adcR .c, .adcR .d,
     .adcR .e, .adcR .h, .adcR .l, .adcM, .adcR .a] := by
  decide

theorem test_map_9x :
  mapRow 0x90#8 =
    [.subR .b, .subR .c, .subR .d, .subR .e, .subR .h, .subR .l, .subM, .subR .a, .sbbR .b, .sbbR .c, .sbbR .d,
     .sbbR .e, .sbbR .h, .sbbR .l, .sbbM, .sbbR .a] := by
  decide

theorem test_map_Ax :
  mapRow 0xA0#8 =
    [.anaR .b, .anaR .c, .anaR .d, .anaR .e, .anaR .h, .anaR .l, .anaM, .anaR .a, .xraR .b, .xraR .c, .xraR .d,
     .xraR .e, .xraR .h, .xraR .l, .xraM, .xraR .a] := by
  decide

theorem test_map_Bx :
  mapRow 0xB0#8 =
    [.oraR .b, .oraR .c, .oraR .d, .oraR .e, .oraR .h, .oraR .l, .oraM, .oraR .a, .cmpR .b, .cmpR .c, .cmpR .d,
     .cmpR .e, .cmpR .h, .cmpR .l, .cmpM, .cmpR .a] := by
  decide

theorem test_map_Cx :
  mapRow 0xC0#8 =
    [.rnz, .popRp .bc, .jnz 0x1234#16, .jmp 0x1234#16, .cnz 0x1234#16, .pushRp .bc, .adi 0x34#8, .rst 0, .rz,
     .ret, .jz 0x1234#16, .undefinedCB, .cz 0x1234#16, .call 0x1234#16, .aci 0x34#8, .rst 1] := by
  decide

theorem test_map_Dx :
  mapRow 0xD0#8 =
    [.rnc, .popRp .de, .jnc 0x1234#16, .outPort 0x34#8, .cnc 0x1234#16, .pushRp .de, .sui 0x34#8, .rst 2, .rc,
     .undefinedD9, .jc 0x1234#16, .inPort 0x34#8, .cc 0x1234#16, .undefinedDD, .sbi 0x34#8, .rst 3] := by
  decide

theorem test_map_Ex :
  mapRow 0xE0#8 =
    [.rpo, .popRp .hl, .jpo 0x1234#16, .xthl, .cpo 0x1234#16, .pushRp .hl, .ani 0x34#8, .rst 4, .rpe, .pchl,
     .jpe 0x1234#16, .xchg, .cpe 0x1234#16, .undefinedED, .xri 0x34#8, .rst 5] := by
  decide

theorem test_map_Fx :
  mapRow 0xF0#8 =
    [.rp, .popPsw, .jp 0x1234#16, .di, .cp 0x1234#16, .pushPsw, .ori 0x34#8, .rst 6, .rm, .sphl, .jm 0x1234#16,
     .ei, .cm 0x1234#16, .undefinedFD, .cpi 0x34#8, .rst 7] := by
  decide

/-- Lengths and operand order (30 R80, R88): what follows an instruction is left, a cut-off one is named. -/
theorem test_decode_lengths :
    decode [0x01#8, 0x98#8, 0x24#8, 0x11#8] = .instr (.lxi .bc 0x2498#16) [0x11#8] ∧
    decode [0xC6#8, 0x68#8, 0x27#8] = .instr (.adi 0x68#8) [0x27#8] ∧
    decode [0x76#8, 0x00#8] = .instr .hlt [0x00#8] ∧ decode [] = .noBytes ∧ decode [0xD3#8] = .truncated 0xD3#8 ∧
    decode [0xC3#8, 0x50#8] = .truncated 0xC3#8 ∧ decode [0xDD#8] = .instr .undefinedDD [] := by
  decide

/-- Words numbered as the opcode table numbers them: bit 0 is the least significant bit of the first byte. -/
theorem test_table_word :
    decodeTableWord 8 0x41 = some (.movRR .b .c) ∧ decodeTableWord 16 0x9206 = some (.mviR .b 0x92#8) ∧
    decodeTableWord 24 0x2050CD = some (.call 0x2050#16) ∧ decodeTableWord 8 0xCD = some (.call 0x0000#16) := by
  decide

/-- An encoder's words, from the encodings of 40 R116, 43 R211 and 44 R241. -/
theorem test_encode :
    encode (.lxi .sp 0x2099#16) = [0x31#8, 0x99#8, 0x20#8] ∧ encode (.call 0x2050#16) = [0xCD#8, 0x50#8, 0x20#8] ∧
    encode (.pushRp .bc) = [0xC5#8] ∧ encode (.rst 5) = [0xEF#8] ∧ encode (.movMR .a) = [0x77#8] := by
  decide

/-! One instruction, from its bytes, on a small state. -/

/-- The flags S, Z, AC, P, CY written as the test vectors write them. -/
def fl (s z ac p cy : Nat) : Flags := { s := s == 1, z := z == 1, ac := ac == 1, p := p == 1, cy := cy == 1 }

/-- Registers written one by one. -/
def setRegs (s : State) (rs : List (Reg × Byte)) : State := rs.foldl (fun s x => s.writeReg x.1 x.2) s

/-- A state at 2000H with these registers and flags. -/
def at2000 (rs : List (Reg × Byte)) (f : Flags) : State := setRegs ((State.reset.withPc 0x2000#16).withFlags f) rs

/-- The instruction of these bytes runs from `s`, and the state after it passes the check. -/
def runs (bs : List Byte) (s : State) (check : State → Bool) : Bool :=
  match decode bs with
  | .instr i [] =>
    match exec i s with
    | .next t => check t
    | .refused _ => false
  | _ => false

/-- After the bytes: these registers and flags, and PC. -/
def gives (bs : List Byte) (s : State) (rs : List (Reg × Byte)) (f : Flags) (pc : Nat) : Bool :=
  runs bs s fun t => rs.all (fun x => t.readReg x.1 == x.2) && t.flags == f && t.pc.toNat == pc

/-- After the bytes: exactly this memory, SP and PC, with the flags as before. -/
def stores (bs : List Byte) (s : State) (m : Memory) (sp pc : Nat) : Bool :=
  runs bs s fun t => t.mem == m && t.sp.toNat == sp && t.pc.toNat == pc && t.flags == s.flags

/-- All flags 0. -/
def f0 : Flags := fl 0 0 0 0 0

/-- V-MOV-1; D-MOV-2 with the source the destination. -/
theorem test_mov_rr :
    gives [0x41#8] (at2000 [(.b, 0x72#8), (.c, 0x9F#8)] f0) [(.b, 0x9F#8), (.c, 0x9F#8)] f0 0x2001 &&
    gives [0x7F#8] (at2000 [(.a, 0x5A#8)] (fl 0 1 0 0 1)) [(.a, 0x5A#8)] (fl 0 1 0 0 1) 0x2001 := by decide

/-- V-MOV-2; D-MOV-3: the address uses HL before the write. -/
theorem test_mov_rm :
    gives [0x46#8] ((at2000 [(.h, 0x20#8), (.l, 0x50#8)] f0).withMem [(0x2050, 0x9F#8)]) [(.b, 0x9F#8)] f0 0x2001 &&
    gives [0x66#8] ((at2000 [(.h, 0x20#8), (.l, 0x50#8)] f0).withMem [(0x2050, 0x30#8)])
      [(.h, 0x30#8), (.l, 0x50#8)] f0 0x2001 := by decide

/-- D-MOV-1: the highest address. -/
theorem test_mov_mr :
    stores [0x77#8] (at2000 [(.a, 0x5A#8), (.h, 0xFF#8), (.l, 0xFF#8)] f0) [(0xFFFF, 0x5A#8)] 0 0x2001 := by decide

/-- V-MVI-1; D-MVI-1: loading 00 does not set Z. -/
theorem test_mvi :
    gives [0x06#8, 0x92#8] (at2000 [] f0) [(.b, 0x92#8)] f0 0x2002 &&
    gives [0x3E#8, 0x00#8] (at2000 [(.a, 0x77#8)] f0) [(.a, 0x00#8)] f0 0x2002 := by decide

/-- V-MVI-2. -/
theorem test_mvi_m :
    stores [0x36#8, 0x3A#8] (at2000 [(.h, 0x20#8), (.l, 0x50#8)] f0) [(0x2050, 0x3A#8)] 0 0x2002 := by decide

/-- V-LXI-1; D-LXI-1: pair code 11 is SP. -/
theorem test_lxi :
    gives [0x01#8, 0x50#8, 0x20#8] (at2000 [] f0) [(.b, 0x20#8), (.c, 0x50#8)] f0 0x2003 &&
    stores [0x31#8, 0x00#8, 0x21#8] (at2000 [] f0) [] 0x2100 0x2003 := by decide

/-- V-LDA-1. -/
theorem test_lda :
    gives [0x3A#8, 0x50#8, 0x20#8] ((at2000 [] f0).withMem [(0x2050, 0xF8#8)]) [(.a, 0xF8#8)] f0 0x2003 := by decide

/-- V-STA-1. -/
theorem test_sta :
    stores [0x32#8, 0x50#8, 0x20#8] (at2000 [(.a, 0x9F#8)] f0) [(0x2050, 0x9F#8)] 0 0x2003 := by decide

/-- V-LDAX-1; D-LDAX-1. -/
theorem test_ldax :
    gives [0x0A#8] ((at2000 [(.b, 0x20#8), (.c, 0x50#8)] f0).withMem [(0x2050, 0x9F#8)]) [(.a, 0x9F#8)] f0 0x2001 &&
    gives [0x1A#8] ((at2000 [(.d, 0x30#8)] f0).withMem [(0x3000, 0x22#8)]) [(.a, 0x22#8)] f0 0x2001 := by decide

/-- V-STAX-1; D-STAX-1. -/
theorem test_stax :
    stores [0x02#8] (at2000 [(.a, 0xF9#8), (.b, 0x20#8), (.c, 0x50#8)] f0) [(0x2050, 0xF9#8)] 0 0x2001 &&
    stores [0x12#8] (at2000 [(.a, 0x11#8), (.d, 0x30#8)] f0) [(0x3000, 0x11#8)] 0 0x2001 := by decide

/-- V-LHLD-1; D-LHLD-1: the second address wraps to 0000. -/
theorem test_lhld :
    gives [0x2A#8, 0x50#8, 0x20#8] ((at2000 [] f0).withMem [(0x2050, 0x90#8), (0x2051, 0x01#8)])
      [(.h, 0x01#8), (.l, 0x90#8)] f0 0x2003 &&
    gives [0x2A#8, 0xFF#8, 0xFF#8] ((at2000 [] f0).withMem [(0, 0x12#8), (0xFFFF, 0x34#8)])
      [(.h, 0x12#8), (.l, 0x34#8)] f0 0x2003 := by decide

/-- V-SHLD-1; D-SHLD-1. -/
theorem test_shld :
    stores [0x22#8, 0x50#8, 0x20#8] (at2000 [(.h, 0x01#8), (.l, 0xFF#8)] f0) [(0x2050, 0xFF#8), (0x2051, 0x01#8)]
      0 0x2003 &&
    stores [0x22#8, 0xFF#8, 0xFF#8] (at2000 [(.h, 0xAB#8), (.l, 0xCD#8)] f0) [(0, 0xAB#8), (0xFFFF, 0xCD#8)]
      0 0x2003 := by decide

/-- D-XCHG-1. -/
theorem test_xchg :
    gives [0xEB#8] (at2000 [(.d, 0x12#8), (.e, 0x34#8), (.h, 0xAB#8), (.l, 0xCD#8)] f0)
      [(.d, 0xAB#8), (.e, 0xCD#8), (.h, 0x12#8), (.l, 0x34#8)] f0 0x2001 := by decide

/-- V-ADD-1; D-ADD-3: both carries. -/
theorem test_add :
    gives [0x80#8] (at2000 [(.a, 0x47#8), (.b, 0x51#8)] f0) [(.a, 0x98#8), (.b, 0x51#8)] (fl 1 0 0 0 0) 0x2001 &&
    gives [0x80#8] (at2000 [(.a, 0xFF#8), (.b, 0x01#8)] f0) [(.a, 0x00#8)] (fl 0 1 1 1 1) 0x2001 := by decide

/-- V-ADD-2. -/
theorem test_add_m :
    gives [0x86#8] ((at2000 [(.a, 0x76#8), (.h, 0x20#8), (.l, 0x50#8)] f0).withMem [(0x2050, 0xA2#8)])
      [(.a, 0x18#8)] (fl 0 0 0 1 1) 0x2001 := by decide

/-- D-ADC-1, D-ADC-2: the carry-in counts toward both carries. -/
theorem test_adc :
    gives [0x88#8] (at2000 [(.a, 0xFF#8)] (fl 0 0 0 0 1)) [(.a, 0x00#8)] (fl 0 1 1 1 1) 0x2001 &&
    gives [0x88#8] (at2000 [(.a, 0x0F#8)] (fl 0 0 0 0 1)) [(.a, 0x10#8)] (fl 0 0 1 0 0) 0x2001 := by decide

/-- V-ADC-1 with the operand in memory (41 R145). -/
theorem test_adc_m :
    gives [0x8E#8] ((at2000 [(.a, 0x24#8), (.h, 0x20#8)] (fl 0 0 0 0 1)).withMem [(0x2000, 0x54#8)])
      [(.a, 0x79#8)] f0 0x2001 := by decide

/-- V-ADI-1; D-ADI-1: the old CY is ignored and cleared. -/
theorem test_adi :
    gives [0xC6#8, 0x59#8] (at2000 [(.a, 0x4A#8)] f0) [(.a, 0xA3#8)] (fl 1 0 1 1 0) 0x2002 &&
    gives [0xC6#8, 0x00#8] (at2000 [] (fl 0 0 0 0 1)) [(.a, 0x00#8)] (fl 0 1 0 1 0) 0x2002 := by decide

/-- V-ACI-1; D-ACI-1. -/
theorem test_aci :
    gives [0xCE#8, 0x57#8] (at2000 [(.a, 0x26#8)] (fl 0 0 0 0 1)) [(.a, 0x7E#8)] (fl 0 0 0 1 0) 0x2002 &&
    gives [0xCE#8, 0xFF#8] (at2000 [(.a, 0xFF#8)] (fl 0 0 0 0 1)) [(.a, 0xFF#8)] (fl 1 0 1 1 1) 0x2002 := by decide

/-- V-SUB-1, under both settings of AC_SUB_ZERO_NIBBLE; D-SUB-1, not the parameter case. -/
theorem test_sub :
    gives [0x91#8] (at2000 [(.a, 0x37#8), (.c, 0x40#8)] f0) [(.a, 0xF7#8)] (fl 1 0 0 0 1) 0x2001 &&
    gives [0x91#8]
      ((at2000 [(.a, 0x37#8), (.c, 0x40#8)] f0).withParams { Config.Params.spec with acSubZeroNibble := true })
      [(.a, 0xF7#8)] (fl 1 0 1 0 1) 0x2001 &&
    gives [0x97#8] (at2000 [(.a, 0x3C#8)] (fl 0 0 0 0 1)) [(.a, 0x00#8)] (fl 0 1 1 1 0) 0x2001 := by decide

/-- D-SUI-2 with the operand in memory (41 R150). -/
theorem test_sub_m :
    gives [0x96#8] ((at2000 [(.a, 0x10#8), (.h, 0x20#8)] f0).withMem [(0x2000, 0x01#8)])
      [(.a, 0x0F#8)] (fl 0 0 0 1 0) 0x2001 := by decide

/-- V-SBB-1; D-SBB-1: operand and borrow make 256. -/
theorem test_sbb :
    gives [0x98#8] (at2000 [(.a, 0x37#8), (.b, 0x3F#8)] (fl 0 0 0 0 1)) [(.a, 0xF7#8)] (fl 1 0 0 0 1) 0x2001 &&
    gives [0x98#8] (at2000 [(.b, 0xFF#8)] (fl 0 0 0 0 1)) [(.a, 0x00#8)] (fl 0 1 0 1 1) 0x2001 := by decide

/-- D-SBB-3 with the operand in memory (41 R152). -/
theorem test_sbb_m :
    gives [0x9E#8] ((at2000 [(.a, 0x50#8), (.h, 0x20#8)] (fl 0 0 0 0 1)).withMem [(0x2000, 0x0F#8)])
      [(.a, 0x40#8)] f0 0x2001 := by decide

/-- V-SUI-1; D-SUI-1. -/
theorem test_sui :
    gives [0xD6#8, 0x37#8] (at2000 [(.a, 0x40#8)] f0) [(.a, 0x09#8)] (fl 0 0 0 1 0) 0x2002 &&
    gives [0xD6#8, 0x01#8] (at2000 [] f0) [(.a, 0xFF#8)] (fl 1 0 0 1 1) 0x2002 := by decide

/-- V-SBI-1; D-SBI-1. -/
theorem test_sbi :
    gives [0xDE#8, 0x25#8] (at2000 [(.a, 0x37#8)] (fl 0 0 0 0 1)) [(.a, 0x11#8)] (fl 0 0 1 1 0) 0x2002 &&
    gives [0xDE#8, 0x05#8] (at2000 [(.a, 0x05#8)] f0) [(.a, 0x00#8)] (fl 0 1 1 1 0) 0x2002 := by decide

/-- V-CMP-1; D-CMP-3. -/
theorem test_cmp :
    gives [0xB8#8] (at2000 [(.a, 0x57#8), (.b, 0x62#8)] f0) [(.a, 0x57#8), (.b, 0x62#8)] (fl 1 0 1 1 1) 0x2001 &&
    gives [0xBF#8] (at2000 [(.a, 0x77#8)] (fl 0 0 0 0 1)) [(.a, 0x77#8)] (fl 0 1 1 1 0) 0x2001 := by decide

/-- D-CMP-2. -/
theorem test_cmp_m :
    gives [0xBE#8] ((at2000 [(.a, 0x10#8), (.h, 0x20#8), (.l, 0x50#8)] f0).withMem [(0x2050, 0x20#8)])
      [(.a, 0x10#8)] (fl 1 0 0 1 1) 0x2001 := by decide

/-- V-CPI-1; V-CPI-2. -/
theorem test_cpi :
    gives [0xFE#8, 0x98#8] (at2000 [(.a, 0xC2#8)] f0) [(.a, 0xC2#8)] f0 0x2002 &&
    gives [0xFE#8, 0xC2#8] (at2000 [(.a, 0xC2#8)] f0) [(.a, 0xC2#8)] (fl 0 1 1 1 0) 0x2002 := by decide

/-- V-ANA-1; D-ANA-3. -/
theorem test_ana :
    gives [0xA2#8] (at2000 [(.a, 0x54#8), (.d, 0x82#8)] f0) [(.a, 0x00#8), (.d, 0x82#8)] (fl 0 1 1 1 0) 0x2001 &&
    gives [0xA7#8] (at2000 [(.a, 0xF0#8)] (fl 0 0 0 0 1)) [(.a, 0xF0#8)] (fl 1 0 1 1 0) 0x2001 := by decide

/-- D-ANA-4. -/
theorem test_ana_m :
    gives [0xA6#8] ((at2000 [(.a, 0xFF#8), (.h, 0x20#8), (.l, 0x50#8)] f0).withMem [(0x2050, 0x0F#8)])
      [(.a, 0x0F#8)] (fl 0 0 1 1 0) 0x2001 := by decide

/-- V-ANI-1; D-ANI-2. -/
theorem test_ani :
    gives [0xE6#8, 0x97#8] (at2000 [(.a, 0xA3#8)] f0) [(.a, 0x83#8)] (fl 1 0 1 0 0) 0x2002 &&
    gives [0xE6#8, 0x0F#8] (at2000 [(.a, 0xF0#8)] (fl 1 0 0 0 1)) [(.a, 0x00#8)] (fl 0 1 1 1 0) 0x2002 := by decide

/-- V-XRA-1; D-XRA-2. -/
theorem test_xra :
    gives [0xAA#8] (at2000 [(.a, 0x77#8), (.d, 0x56#8)] f0) [(.a, 0x21#8)] (fl 0 0 0 1 0) 0x2001 &&
    gives [0xAF#8] (at2000 [(.a, 0x5A#8)] (fl 1 0 1 0 1)) [(.a, 0x00#8)] (fl 0 1 0 1 0) 0x2001 := by decide

/-- V-XRA-1 with the operand in memory (42 R175). -/
theorem test_xra_m :
    gives [0xAE#8] ((at2000 [(.a, 0x77#8), (.h, 0x20#8)] f0).withMem [(0x2000, 0x56#8)])
      [(.a, 0x21#8)] (fl 0 0 0 1 0) 0x2001 := by decide

/-- V-XRI-1; D-XRI-2. -/
theorem test_xri :
    gives [0xEE#8, 0xA2#8] (at2000 [(.a, 0x8F#8)] f0) [(.a, 0x2D#8)] (fl 0 0 0 1 0) 0x2002 &&
    gives [0xEE#8, 0xFF#8] (at2000 [(.a, 0x55#8)] (fl 0 0 0 0 1)) [(.a, 0xAA#8)] (fl 1 0 0 1 0) 0x2002 := by decide

/-- V-ORA-1; D-ORA-2. -/
theorem test_ora :
    gives [0xB1#8] (at2000 [(.a, 0x03#8), (.c, 0x81#8)] f0) [(.a, 0x83#8)] (fl 1 0 0 0 0) 0x2001 &&
    gives [0xB7#8] (at2000 [(.a, 0x80#8)] (fl 0 0 1 0 1)) [(.a, 0x80#8)] (fl 1 0 0 0 0) 0x2001 := by decide

/-- D-ORA-4. -/
theorem test_ora_m :
    gives [0xB6#8] ((at2000 [(.a, 0x0F#8), (.h, 0x20#8), (.l, 0x50#8)] f0).withMem [(0x2050, 0xF0#8)])
      [(.a, 0xFF#8)] (fl 1 0 0 1 0) 0x2001 := by decide

/-- D-ORI-1. -/
theorem test_ori :
    gives [0xF6#8, 0x01#8] (at2000 [(.a, 0xFE#8)] f0) [(.a, 0xFF#8)] (fl 1 0 0 1 0) 0x2002 := by decide

/-- D-INR-1; D-INR-3: no carry out is recorded. -/
theorem test_inr :
    gives [0x04#8] (at2000 [(.b, 0x0F#8)] (fl 0 0 0 0 1)) [(.b, 0x10#8)] (fl 0 0 1 0 1) 0x2001 &&
    gives [0x3C#8] (at2000 [(.a, 0xFF#8)] f0) [(.a, 0x00#8)] (fl 0 1 1 1 0) 0x2001 := by decide

/-- V-INR-2. -/
theorem test_inr_m :
    runs [0x34#8] ((at2000 [(.h, 0x20#8), (.l, 0x75#8)] (fl 0 0 0 0 1)).withMem [(0x2075, 0x7F#8)])
      (fun t => t.mem == [(0x2075, 0x80#8)] && t.flags == fl 1 0 1 0 1 && t.pc == 0x2001#16) := by decide

/-- V-DCR-1; D-DCR-4. -/
theorem test_dcr :
    gives [0x05#8] (at2000 [] (fl 0 0 0 0 1)) [(.b, 0xFF#8)] (fl 1 0 0 1 1) 0x2001 &&
    gives [0x0D#8] (at2000 [(.c, 0x10#8)] f0) [(.c, 0x0F#8)] (fl 0 0 0 1 0) 0x2001 := by decide

/-- V-DCR-2. -/
theorem test_dcr_m :
    runs [0x35#8] ((at2000 [(.h, 0x20#8), (.l, 0x85#8)] f0).withMem [(0x2085, 0xA0#8)])
      (fun t => t.mem == [(0x2085, 0x9F#8)] && t.flags == fl 1 0 0 1 0 && t.pc == 0x2001#16) := by decide

/-- D-INX-2 and D-INX-3: both wrap, no flag. -/
theorem test_inx :
    gives [0x03#8] (at2000 [(.b, 0xFF#8), (.c, 0xFF#8)] f0) [(.b, 0x00#8), (.c, 0x00#8)] f0 0x2001 &&
    stores [0x33#8] ((at2000 [] f0).withSp 0xFFFF#16) [] 0x0000 0x2001 := by decide

/-- V-DCX-1; D-DCX-4. -/
theorem test_dcx :
    gives [0x1B#8] (at2000 [(.d, 0x20#8)] f0) [(.d, 0x1F#8), (.e, 0xFF#8)] f0 0x2001 &&
    stores [0x3B#8] (at2000 [] f0) [] 0xFFFF 0x2001 := by decide

/-- D-DAD-5: Z is not set by a zero result; D-DAD-4: CY is cleared when there is no carry. -/
theorem test_dad :
    gives [0x19#8] (at2000 [(.h, 0xFF#8), (.l, 0xFF#8), (.e, 0x01#8)] (fl 1 0 0 0 0))
      [(.h, 0x00#8), (.l, 0x00#8)] (fl 1 0 0 0 1) 0x2001 &&
    gives [0x09#8] (at2000 [(.h, 0x12#8), (.l, 0x34#8), (.b, 0x11#8), (.c, 0x11#8)] (fl 0 0 0 0 1))
      [(.h, 0x23#8), (.l, 0x45#8)] f0 0x2001 := by decide

/-- D-DAA-3, D-DAA-4, D-DAA-9: step 1 carries into the high nibble, or out of the byte. -/
theorem test_daa_carries :
    gives [0x27#8] (at2000 [(.a, 0x9A#8)] f0) [(.a, 0x00#8)] (fl 0 1 1 1 1) 0x2001 &&
    gives [0x27#8] (at2000 [(.a, 0xFA#8)] f0) [(.a, 0x60#8)] (fl 0 0 1 1 1) 0x2001 &&
    gives [0x27#8] (at2000 [(.a, 0x9F#8)] (fl 0 0 1 0 0)) [(.a, 0x05#8)] (fl 0 0 1 1 1) 0x2001 := by decide

/-- V-DAA-2; D-DAA-7, D-DAA-11: the flags in force a step. -/
theorem test_daa_flags :
    gives [0x27#8] (at2000 [(.a, 0xED#8)] f0) [(.a, 0x53#8)] (fl 0 0 1 1 1) 0x2001 &&
    gives [0x27#8] (at2000 [] (fl 0 0 1 0 1)) [(.a, 0x66#8)] (fl 0 0 0 1 1) 0x2001 &&
    gives [0x27#8] (at2000 [(.a, 0x12#8)] (fl 0 0 1 0 0)) [(.a, 0x18#8)] (fl 0 0 0 1 0) 0x2001 := by decide

/-- V-RLC-1; D-RLC-2. -/
theorem test_rlc :
    gives [0x07#8] (at2000 [(.a, 0xA7#8)] f0) [(.a, 0x4F#8)] (fl 0 0 0 0 1) 0x2001 &&
    gives [0x07#8] (at2000 [(.a, 0x80#8)] (fl 1 1 0 0 0)) [(.a, 0x01#8)] (fl 1 1 0 0 1) 0x2001 := by decide

/-- V-RRC-1; D-RRC-3. -/
theorem test_rrc :
    gives [0x0F#8] (at2000 [(.a, 0xA7#8)] f0) [(.a, 0xD3#8)] (fl 0 0 0 0 1) 0x2001 &&
    gives [0x0F#8] (at2000 [(.a, 0xFE#8)] (fl 0 0 0 0 1)) [(.a, 0x7F#8)] f0 0x2001 := by decide

/-- V-RAL-1; D-RAL-3. -/
theorem test_ral :
    gives [0x17#8] (at2000 [(.a, 0xA7#8)] f0) [(.a, 0x4E#8)] (fl 0 0 0 0 1) 0x2001 &&
    gives [0x17#8] (at2000 [] (fl 0 0 0 0 1)) [(.a, 0x01#8)] f0 0x2001 := by decide

/-- V-RAR-1; D-RAR-2. -/
theorem test_rar :
    gives [0x1F#8] (at2000 [(.a, 0xA7#8)] f0) [(.a, 0x53#8)] (fl 0 0 0 0 1) 0x2001 &&
    gives [0x1F#8] (at2000 [(.a, 0x01#8)] (fl 0 0 0 0 1)) [(.a, 0x80#8)] (fl 0 0 0 0 1) 0x2001 := by decide

/-- V-CMA-1; D-CMA-2. -/
theorem test_cma :
    gives [0x2F#8] (at2000 [(.a, 0x89#8)] f0) [(.a, 0x76#8)] f0 0x2001 &&
    gives [0x2F#8] (at2000 [] (fl 0 1 0 0 0)) [(.a, 0xFF#8)] (fl 0 1 0 0 0) 0x2001 := by decide

/-- D-CMC-1, D-CMC-2. -/
theorem test_cmc :
    gives [0x3F#8] (at2000 [] (fl 0 1 0 0 1)) [] (fl 0 1 0 0 0) 0x2001 &&
    gives [0x3F#8] (at2000 [] f0) [] (fl 0 0 0 0 1) 0x2001 := by decide

/-- D-STC-1, D-STC-2. -/
theorem test_stc :
    gives [0x37#8] (at2000 [] (fl 1 0 0 0 0)) [] (fl 1 0 0 0 1) 0x2001 &&
    gives [0x37#8] (at2000 [] (fl 0 0 0 0 1)) [] (fl 0 0 0 0 1) 0x2001 := by decide

/-- V-JMP-1; D-PCHL-1. -/
theorem test_jmp_pchl :
    gives [0xC3#8, 0x50#8, 0x20#8] (at2000 [] f0) [] f0 0x2050 &&
    gives [0xE9#8] (at2000 [(.h, 0x34#8), (.l, 0x56#8)] f0) [] f0 0x3456 := by decide

/-- D-JNZ, D-JZ, D-JNC, D-JC: taken and not. -/
theorem test_jumps_z_cy :
    gives [0xC2#8, 0x34#8, 0x12#8] (at2000 [] f0) [] f0 0x1234 &&
    gives [0xC2#8, 0x34#8, 0x12#8] (at2000 [] (fl 0 1 0 0 0)) [] (fl 0 1 0 0 0) 0x2003 &&
    gives [0xCA#8, 0x34#8, 0x12#8] (at2000 [] (fl 0 1 0 0 0)) [] (fl 0 1 0 0 0) 0x1234 &&
    gives [0xCA#8, 0x34#8, 0x12#8] (at2000 [] f0) [] f0 0x2003 &&
    gives [0xD2#8, 0x34#8, 0x12#8] (at2000 [] f0) [] f0 0x1234 &&
    gives [0xD2#8, 0x34#8, 0x12#8] (at2000 [] (fl 0 0 0 0 1)) [] (fl 0 0 0 0 1) 0x2003 &&
    gives [0xDA#8, 0x34#8, 0x12#8] (at2000 [] (fl 0 0 0 0 1)) [] (fl 0 0 0 0 1) 0x1234 &&
    gives [0xDA#8, 0x34#8, 0x12#8] (at2000 [] f0) [] f0 0x2003 := by decide

/-- D-JPO, D-JPE, D-JP, D-JM: taken and not. -/
theorem test_jumps_p_s :
    gives [0xE2#8, 0x34#8, 0x12#8] (at2000 [] f0) [] f0 0x1234 &&
    gives [0xE2#8, 0x34#8, 0x12#8] (at2000 [] (fl 0 0 0 1 0)) [] (fl 0 0 0 1 0) 0x2003 &&
    gives [0xEA#8, 0x34#8, 0x12#8] (at2000 [] (fl 0 0 0 1 0)) [] (fl 0 0 0 1 0) 0x1234 &&
    gives [0xEA#8, 0x34#8, 0x12#8] (at2000 [] f0) [] f0 0x2003 &&
    gives [0xF2#8, 0x34#8, 0x12#8] (at2000 [] f0) [] f0 0x1234 &&
    gives [0xF2#8, 0x34#8, 0x12#8] (at2000 [] (fl 1 0 0 0 0)) [] (fl 1 0 0 0 0) 0x2003 &&
    gives [0xFA#8, 0x34#8, 0x12#8] (at2000 [] (fl 1 0 0 0 0)) [] (fl 1 0 0 0 0) 0x1234 &&
    gives [0xFA#8, 0x34#8, 0x12#8] (at2000 [] f0) [] f0 0x2003 := by decide

/-- D-CALL-2: the return address and the stack wrap, and the pushes overwrite the CALL's own operand bytes. -/
theorem test_call :
    stores [0xCD#8, 0x00#8, 0x30#8]
      (((at2000 [] f0).withPc 0xFFFE#16).withSp 0x0001#16 |>.withMem [(0, 0x30#8), (0xFFFE, 0xCD#8), (0xFFFF, 0x00#8)])
      [(0, 0x00#8), (0xFFFE, 0xCD#8), (0xFFFF, 0x01#8)] 0xFFFF 0x3000 := by decide

/-- The conditional calls at 2000 with SP = 2099, taken (43 R212 to R219; D-CNZ-1, D-CM-1). -/
theorem test_calls_taken :
    [(0xC4#8, f0), (0xCC#8, fl 0 1 0 0 0), (0xD4#8, f0), (0xDC#8, fl 0 0 0 0 1), (0xE4#8, f0), (0xEC#8, fl 0 0 0 1 0),
      (0xF4#8, f0), (0xFC#8, fl 1 0 0 0 0)].all (fun x =>
        stores [x.1, 0x50#8, 0x20#8] ((at2000 [] x.2).withSp 0x2099#16) [(0x2097, 0x03#8), (0x2098, 0x20#8)]
          0x2097 0x2050) := by decide

/-- The conditional calls, not taken (D-CNZ-2, D-CPE-1). -/
theorem test_calls_not_taken :
    [(0xC4#8, fl 0 1 0 0 0), (0xCC#8, f0), (0xD4#8, fl 0 0 0 0 1), (0xDC#8, f0), (0xE4#8, fl 0 0 0 1 0), (0xEC#8, f0),
      (0xF4#8, fl 1 0 0 0 0), (0xFC#8, f0)].all (fun x =>
        stores [x.1, 0x50#8, 0x20#8] ((at2000 [] x.2).withSp 0x2099#16) [] 0x2099 0x2003) := by decide

/-- V-RET-1 and the conditional returns, taken (43 R220 to R228; D-RZ-1). -/
theorem test_returns_taken :
    [(0xC9#8, f0), (0xC0#8, f0), (0xC8#8, fl 0 1 0 0 0), (0xD0#8, f0), (0xD8#8, fl 0 0 0 0 1), (0xE0#8, f0),
      (0xE8#8, fl 0 0 0 1 0), (0xF0#8, f0), (0xF8#8, fl 1 0 0 0 0)].all (fun x =>
        stores [x.1] (((at2000 [] x.2).withSp 0x2095#16).withMem [(0x2095, 0x50#8), (0x2096, 0x20#8)])
          [(0x2095, 0x50#8), (0x2096, 0x20#8)] 0x2097 0x2050) := by decide

/-- The conditional returns, not taken (D-RZ-2). -/
theorem test_returns_not_taken :
    [(0xC0#8, fl 0 1 0 0 0), (0xC8#8, f0), (0xD0#8, fl 0 0 0 0 1), (0xD8#8, f0), (0xE0#8, fl 0 0 0 1 0), (0xE8#8, f0),
      (0xF0#8, fl 1 0 0 0 0), (0xF8#8, f0)].all (fun x =>
        stores [x.1] ((at2000 [] x.2).withSp 0x2095#16) [] 0x2095 0x2001) := by decide

/-- D-RST-7; D-RST-5: the pushed address wraps. -/
theorem test_rst :
    stores [0xFF#8] (((at2000 [] f0).withPc 0x2345#16).withSp 0x2100#16) [(0x20FE, 0x46#8), (0x20FF, 0x23#8)]
      0x20FE 0x0038 &&
    stores [0xEF#8] ((at2000 [] f0).withPc 0xFFFF#16) [(0xFFFE, 0x00#8), (0xFFFF, 0x00#8)] 0xFFFE 0x0028 := by decide

/-- V-PUSH-1; D-PUSH-2: the stack wraps. -/
theorem test_push :
    stores [0xC5#8] ((at2000 [(.b, 0x32#8), (.c, 0x57#8)] f0).withSp 0x2099#16) [(0x2097, 0x57#8), (0x2098, 0x32#8)]
      0x2097 0x2001 &&
    stores [0xC5#8] ((at2000 [(.b, 0xBB#8), (.c, 0xCC#8)] f0).withSp 0x0001#16) [(0, 0xBB#8), (0xFFFF, 0xCC#8)]
      0xFFFF 0x2001 := by decide

/-- D-PUSHPSW-1 with the unused bits fixed at 1 1 1 and at 0 0 0. -/
theorem test_push_psw :
    stores [0xF5#8] (((at2000 [(.a, 0x12#8)] (fl 1 0 1 1 1)).withSp 0x2100#16).withParams
      { Config.Params.spec with flagUnused := some 0b111#3 }) [(0x20FE, 0xBF#8), (0x20FF, 0x12#8)] 0x20FE 0x2001 &&
    stores [0xF5#8] (((at2000 [(.a, 0x12#8)] (fl 1 0 1 1 1)).withSp 0x2100#16).withParams
      { Config.Params.spec with flagUnused := some 0b000#3 }) [(0x20FE, 0x95#8), (0x20FF, 0x12#8)] 0x20FE 0x2001 := by
  decide

/-- D-POP-2: the pop wraps. -/
theorem test_pop :
    gives [0xD1#8] (((at2000 [] f0).withSp 0xFFFF#16).withMem [(0, 0xDD#8), (0xFFFF, 0xEE#8)])
      [(.d, 0xDD#8), (.e, 0xEE#8)] f0 0x2001 &&
    runs [0xD1#8] (((at2000 [] f0).withSp 0xFFFF#16).withMem [(0, 0xDD#8), (0xFFFF, 0xEE#8)])
      (fun t => t.sp == 0x0001#16) := by decide

/-- D-POPPSW-2, D-POPPSW-3: bits D5, D3, D1 are discarded, and Z comes from memory. -/
theorem test_pop_psw :
    gives [0xF1#8] (((at2000 [] (fl 1 1 1 1 1)).withSp 0x20FE#16).withMem [(0x20FE, 0x2A#8), (0x20FF, 0x34#8)])
      [(.a, 0x34#8)] f0 0x2001 &&
    gives [0xF1#8] (((at2000 [] f0).withSp 0x20FE#16).withMem [(0x20FE, 0x45#8), (0x20FF, 0x00#8)])
      [(.a, 0x00#8)] (fl 0 1 0 1 1) 0x2001 := by decide

/-- V-XTHL-1. -/
theorem test_xthl :
    gives [0xE3#8] (((at2000 [(.h, 0xA2#8), (.l, 0x57#8)] f0).withSp 0x2095#16).withMem
      [(0x2095, 0x38#8), (0x2096, 0x67#8)]) [(.h, 0x67#8), (.l, 0x38#8)] f0 0x2001 &&
    stores [0xE3#8] (((at2000 [(.h, 0xA2#8), (.l, 0x57#8)] f0).withSp 0x2095#16).withMem
      [(0x2095, 0x38#8), (0x2096, 0x67#8)]) [(0x2095, 0x57#8), (0x2096, 0xA2#8)] 0x2095 0x2001 := by decide

/-- D-SPHL-1. -/
theorem test_sphl : stores [0xF9#8] (at2000 [(.h, 0x21#8)] f0) [] 0x2100 0x2001 := by decide

/-- D-IN-1: no flag from the data. -/
theorem test_in :
    gives [0xDB#8, 0x01#8] ((at2000 [] (fl 1 0 0 0 0)).withInputs { Inputs.idle with ports := [(0x01#8, 0x7E#8)] })
      [(.a, 0x7E#8)] (fl 1 0 0 0 0) 0x2002 := by decide

/-- D-OUT-1. -/
theorem test_out :
    runs [0xD3#8, 0x02#8] (at2000 [(.a, 0x99#8)] f0)
      (fun t => t.outTrace == [(0x02#8, 0x99#8)] && t.regs.a == 0x99#8 && t.pc == 0x2002#16) := by decide

/-- D-EI-1 with D-INT-14's settings of EI_DELAY. -/
theorem test_ei :
    runs [0xFB#8] ((at2000 [] f0).withParams { Config.Params.spec with eiDelay := .none })
      (fun t => t.ctl.ie && !t.ctl.eiShadow && t.pc == 0x2001#16) &&
    runs [0xFB#8] ((at2000 [] f0).withParams { Config.Params.spec with eiDelay := .oneInstruction })
      (fun t => t.ctl.ie && t.ctl.eiShadow) := by decide

/-- D-DI-1. -/
theorem test_di :
    runs [0xF3#8] ((at2000 [] f0).withCtl { State.reset.ctl with ie := true })
      (fun t => !t.ctl.ie && t.pc == 0x2001#16) := by decide

/-- D-NOP-1; D-HLT-1. -/
theorem test_nop_hlt :
    runs [0x00#8] (at2000 [] f0) (fun t => decide (t = (at2000 [] f0).withPc 0x2001#16)) &&
    runs [0x76#8] (at2000 [] f0) (fun t => t.ctl.halted && t.pc == 0x2001#16) := by decide

/-- D-RIM-2; D-RIM-3: a masked request still reads as pending. -/
theorem test_rim :
    gives [0x20#8] (at2000 [] f0) [(.a, 0x07#8)] f0 0x2001 &&
    gives [0x20#8] (((at2000 [] f0).withInputs { Inputs.idle with sid := true, run65 := true }).withCtl
      { State.reset.ctl with ie := true, m55 := false }) [(.a, 0xAE#8)] f0 0x2001 := by decide

/-- V-SIM-1, D-SIM-4, D-SIM-7, D-SIM-10: what is not enabled is not touched. -/
theorem test_sim_enables :
    runs [0x30#8] (at2000 [(.a, 0x0E#8)] f0)
      (fun t => decide (t.ctl = { State.reset.ctl with m55 := false }) && t.regs.a == 0x0E#8 && t.sodTrace == []) &&
    runs [0x30#8] (at2000 [(.a, 0xA7#8)] f0) (fun t => decide (t.ctl = State.reset.ctl)) := by decide

/-- D-SIM-9, D-SIM-11. -/
theorem test_sim_all :
    runs [0x30#8] ((at2000 [(.a, 0xFF#8)] f0).withCtl { State.reset.ctl with ff75 := true, m75 := false })
      (fun t => decide (t.ctl = { State.reset.ctl with sod := true }) && t.sodTrace == [true]) &&
    runs [0x30#8] ((at2000 [(.a, 0x1D#8)] f0).withCtl { State.reset.ctl with ff75 := true })
      (fun t => decide (t.ctl = { State.reset.ctl with m65 := false })) := by decide

/-- D-DEC-1 (30 R96): the undefined first bytes are refused by name. -/
theorem test_undefined :
    exec (instrOf 0xDD#8 0x00#8 0x00#8) State.reset = .refused (.undefinedOpcode 0xDD#8) ∧
    exec (instrOf 0x08#8 0x00#8 0x00#8) State.reset = .refused (.undefinedOpcode 0x08#8) := ⟨rfl, rfl⟩

/-! Memory. -/

/-- A write keeps the order of addresses; a rewrite keeps one entry (20_memory.md R51). -/
theorem test_store :
    Memory.store [(1, 0x11#8), (5, 0x55#8)] 3 0x33#8 = [(1, 0x11#8), (3, 0x33#8), (5, 0x55#8)] ∧
    Memory.store [(1, 0x11#8), (5, 0x55#8)] 5 0x00#8 = [(1, 0x11#8), (5, 0x00#8)] := by decide

/-- A platform with one range, whose other addresses are RAM. -/
def platform (kind : Config.RegionKind) : Config.Params :=
  { Config.Params.spec with regions := [{ base := 0x2050, size := 2, kind := kind }] }

/-- ROM ignores writes and is read as it is; an absent address ignores writes (20 R64). -/
theorem test_regions :
    stores [0x36#8, 0x3A#8] (((at2000 [(.h, 0x20#8), (.l, 0x51#8)] f0).withParams (platform .rom)).withMem
      [(0x2051, 0x99#8)]) [(0x2051, 0x99#8)] 0 0x2002 &&
    stores [0x36#8, 0x3A#8] ((at2000 [(.h, 0x20#8), (.l, 0x50#8)] f0).withParams (platform .absent)) [] 0 0x2002 &&
    stores [0x36#8, 0x3A#8] ((at2000 [(.h, 0x20#8), (.l, 0x52#8)] f0).withParams (platform .absent))
      [(0x2052, 0x3A#8)] 0 0x2002 := by decide

/-! Steps. -/

/-- One step from `s`, and a check of the state after it. -/
def steps (s : State) (check : State → Bool) : Bool :=
  match step s with
  | .next t => check t
  | .refused _ => false

/-- A boundary with PC = 2345, SP = 2100 and a NOP at PC (95 section 2.6), these flip-flops and this answer. -/
def boundary (c : Control) (i : Inputs) : State :=
  ((((State.reset.withPc 0x2345#16).withSp 0x2100#16).withMem [(0x2345, 0x00#8)]).withCtl c).withScript [i]

/-- IE set, every mask 0. -/
def open0 : Control := { State.reset.ctl with ie := true, m75 := false, m65 := false, m55 := false }

/-- The entry of 95 section 2.6 at a vector. -/
def entered (v : Nat) (t : State) : Bool :=
  t.pc.toNat == v && t.sp == 0x20FE#16 && t.mem == [(0x20FE, 0x45#8), (0x20FF, 0x23#8), (0x2345, 0x00#8)] &&
    !t.ctl.ie && !t.ctl.halted && !t.ctl.eiShadow

/-- D-INT-1: TRAP ignores IE; D-INT-15: and EI_shadow. -/
theorem test_trap :
    steps (boundary State.reset.ctl { Inputs.idle with trapReq := true }) (entered 0x0024) &&
    steps (boundary { open0 with eiShadow := true } { Inputs.idle with trapReq := true }) (entered 0x0024) := by decide

/-- D-INT-2: out of Halt. -/
theorem test_trap_halted :
    steps (boundary { State.reset.ctl with halted := true } { Inputs.idle with trapReq := true }) (entered 0x0024) := by
  decide

/-- D-INT-3: FF75 is reset; D-INT-11: the external request is lowest. -/
theorem test_rst75 :
    steps (boundary { open0 with m65 := true, m55 := true, ff75 := true } Inputs.idle)
      (fun t => entered 0x003C t && !t.ctl.ff75) &&
    steps (boundary { open0 with ff75 := true } { Inputs.idle with extOp := some 0xFF#8 })
      (fun t => entered 0x003C t && !t.ctl.ff75) := by decide

/-- D-INT-4 and D-INT-5: masked, or IE = 0, the request is kept and the NOP runs. -/
theorem test_rst75_held :
    steps (boundary { open0 with m75 := true, ff75 := true } Inputs.idle)
      (fun t => t.ctl.ff75 && t.pc == 0x2346#16) &&
    steps (boundary { open0 with ie := false } { Inputs.idle with i75Event := true })
      (fun t => t.ctl.ff75 && t.pc == 0x2346#16) := by decide

/-- D-INT-6, D-INT-7. -/
theorem test_rst65_rst55 :
    steps (boundary open0 { Inputs.idle with i65Req := true, i55Req := true }) (entered 0x0034) &&
    steps (boundary { open0 with m75 := true, m65 := true } { Inputs.idle with i65Req := true, i55Req := true })
      (entered 0x002C) := by decide

/-- D-INT-8: TRAP first, FF75 waits. -/
theorem test_priority :
    steps (boundary { open0 with ff75 := true }
      { Inputs.idle with trapReq := true, i65Req := true, i55Req := true, extOp := some 0xD7#8 })
      (fun t => entered 0x0024 t && t.ctl.ff75) := by decide

/-- D-INT-9: the pushed value is 2345; D-INT-10: not with IE = 0. -/
theorem test_external :
    steps (boundary open0 { Inputs.idle with extOp := some 0xD7#8 }) (entered 0x0010) &&
    steps (boundary State.reset.ctl { Inputs.idle with extOp := some 0xD7#8 }) (fun t => t.pc == 0x2346#16) := by decide

/-- D-INT-13: a byte that is no RST is refused. -/
theorem test_external_refused :
    step (boundary open0 { Inputs.idle with extOp := some 0xCD#8 }) = .refused (.insertedNotRst 0xCD#8) := rfl

/-- D-INT-14: while EI_shadow is 1 a maskable request waits for one instruction. -/
theorem test_ei_shadow :
    steps (boundary { open0 with eiShadow := true } { Inputs.idle with i65Req := true })
      (fun t => t.pc == 0x2346#16 && !t.ctl.eiShadow && t.ctl.ie) := by decide

/-- 70_reset_and_hazards.md R310: reset comes first and keeps the registers. -/
theorem test_reset :
    steps ((boundary { open0 with halted := true, sod := true } { Inputs.idle with reset := true, trapReq := true }).writeReg
      .a 0x42#8) (fun t => t.pc == 0x0000#16 && decide (t.ctl = State.reset.ctl) && t.regs.a == 0x42#8 &&
        t.sp == 0x2100#16) := by decide

/-- A cut after `done` accesses, with FF in every register and flag it may leave. -/
def cutAt (done : Nat) (torn : Option Byte) : Cut :=
  { done := done
    torn := torn
    regs := { a := 0xFF#8, b := 0xFF#8, c := 0xFF#8, d := 0xFF#8, e := 0xFF#8, h := 0xFF#8, l := 0xFF#8 }
    flags := fl 1 1 1 1 1
    sp := 0x20FF#16 }

/-- A boundary with PC = 2345, SP = 2100, BC = 1234 and PUSH B at PC, which a reset cuts short. -/
def pushCut (c : Cut) : State :=
  ((boundary open0 { Inputs.idle with cut := some c }).withMem [(0x2345, 0xC5#8)]).writePair .bc 0x1234#16

/-- 70 R311 with 20 R71: before the first write; between the two; in the second, which leaves 5A. The high-order byte 12 goes
first, to 20FF. B and C, which PUSH does not write, are kept. -/
theorem test_reset_inside_push :
    steps (pushCut (cutAt 0 none)) (fun t => t.pc == 0x0000#16 && t.mem == [(0x2345, 0xC5#8)]) &&
    steps (pushCut (cutAt 1 none)) (fun t => decide (t.ctl = State.reset.ctl) && t.bc == 0x1234#16 &&
      t.mem == [(0x20FF, 0x12#8), (0x2345, 0xC5#8)]) &&
    steps (pushCut (cutAt 1 (some 0x5A#8))) (fun t =>
      t.mem == [(0x20FE, 0x5A#8), (0x20FF, 0x12#8), (0x2345, 0xC5#8)]) := by decide

/-- 70 R310 with 60 R278: inside the entry to TRAP, after its first write; in the Halt state nothing is cut. -/
theorem test_reset_inside_entry :
    steps (boundary open0 { Inputs.idle with trapReq := true, cut := some (cutAt 1 none) })
      (fun t => t.pc == 0x0000#16 && decide (t.ctl = State.reset.ctl) &&
        t.mem == [(0x20FF, 0x23#8), (0x2345, 0x00#8)]) &&
    steps (boundary { open0 with halted := true } { Inputs.idle with cut := some (cutAt 1 (some 0x5A#8)) })
      (fun t => decide (t.ctl = State.reset.ctl) && t.sp == 0x2100#16 && t.mem == [(0x2345, 0x00#8)]) := by decide

/-- D19: with nothing asked the processor stays halted. -/
theorem test_stays_halted :
    steps (boundary { State.reset.ctl with halted := true } Inputs.idle)
      (fun t => t.ctl.halted && t.pc == 0x2345#16) := by decide

/-- The placed instruction is the first one after reset (MVI A,42H; CALL 2050H). -/
theorem test_withFetchWord :
    steps (State.reset.withFetchWord 16 0x423E) (fun t => t.regs.a == 0x42#8 && t.pc == 0x0002#16) &&
    steps (State.reset.withFetchWord 24 0x2050CD) (fun t => t.pc == 0x2050#16 && t.sp == 0xFFFE#16) := by decide

/-- Fetch at PC and PC + 1 with PC wrapping (D-PC-1). -/
theorem test_fetch_wraps :
    steps ((State.reset.withPc 0xFFFF#16).withMem [(0, 0x42#8), (1, 0x00#8), (0xFFFF, 0x3E#8)])
      (fun t => t.regs.a == 0x42#8 && t.pc == 0x0001#16) := by decide

/-- Source statements as 30 R100, R101 and the programs of 95 part 3 write them. -/
theorem test_source :
    sourceOf (.movRR .a .c) = "MOV A,C" ∧ sourceOf (.mviR .a 0x0E#8) = "MVI A,0EH" ∧
    sourceOf (.lxi .sp 0x2099#16) = "LXI SP,2099H" ∧ sourceOf .popPsw = "POP PSW" ∧ sourceOf (.rst 7) = "RST 7" := by
  decide

/-! Witnesses: for each statement with hypotheses, states and operands that meet them all, one for each clause, at a boundary
of its range where it has one. -/

/-- A state whose page at 3000H is ROM and whose page at 4000H is absent. -/
def mixed : State :=
  State.reset.withParams
    { Config.Params.spec with regions := [{ base := 0x3000, size := 256, kind := .rom }, { base := 0x4000, size := 256, kind := .absent }] }

theorem witness_DecodeOfEncode : (Instr.rst 7).WellFormed ∧ (Instr.pushRp .hl).WellFormed ∧ (Instr.ldax .de).WellFormed := by
  decide

theorem witness_EncodeOfDecode :
    decode [0xFF#8] = .instr (.rst 7) [] ∧ decode [0x31#8, 0xFF#8, 0xFF#8, 0x00#8] = .instr (.lxi .sp 0xFFFF#16) [0x00#8] := by
  decide

/-- A first byte of each length, and a state in which each condition is false. -/
theorem witness_LengthFollowsFromFirstByte :
    (∀ op ∈ [0x31#8, 0x3E#8, 0xFF#8], ∀ x ∈ undefinedOpcodes, op ≠ x.1) ∧
    (∀ cc ∈ [Cond.nz, .nc, .po, .p], (fl 1 1 1 1 1).cond cc = false) ∧
    (∀ cc ∈ [Cond.z, .c, .pe, .m], f0.cond cc = false) := by decide

/-- A boundary at which the first byte DD is reached. -/
theorem witness_UndefinedFirstBytesAreRefused :
    (0xDD#8, Instr.undefinedDD) ∈ undefinedOpcodes ∧ (State.reset.withMem [(0, 0xDD#8)]).sample.boundary = .run ∧
    (State.reset.withMem [(0, 0xDD#8)]).sample.begin.readByte 0x0000#16 = 0xDD#8 := by decide

/-- RAM and no RAM, for the stores, SHLD, INR M, DCR M, XTHL and Memory statements: next to each other at 2FFF and 3000. -/
theorem witness_regions :
    mixed.regionAt 0x2FFF#16 = .ram ∧ mixed.regionAt (0x2FFF#16 + 1) = .rom ∧ mixed.regionAt 0x4000#16 = .absent ∧
    mixed.regionAt 0x40FF#16 = .absent ∧ mixed.regionAt 0x4100#16 = .ram ∧ mixed.regionAt (0x4100#16 + 1) = .ram := by
  decide

/-- The HL of INR M and DCR M in RAM and in ROM. -/
theorem witness_MemoryStepResults :
    mixed.regionAt mixed.hl = .ram ∧ (mixed.writePair .hl 0x3000#16).regionAt (mixed.writePair .hl 0x3000#16).hl ≠ .ram := by
  decide

theorem witness_PairStepResults : Pair.bc ≠ .sp ∧ Pair.hl ≠ .sp := by decide

/-- The flags of each parity of the parameter case of 41 R148: operand and borrow 0 in the low nibble, and not. -/
theorem witness_SubtractionResults :
    (0x40#8).toNat % 16 + false.toNat = 0 ∧ (0x4F#8).toNat % 16 + true.toNat ≠ 0 := by decide

/-- DAA with each of the four corrections: 9A, 0A, A0 and 99. -/
theorem witness_DaaIsTheSingleCorrection :
    9 < (0x9A#8).toNat % 16 ∧ ((0x9A#8).toNat / 16 = 9 ∧ 9 < (0x9A#8).toNat % 16) ∧
    9 < (0x0A#8).toNat % 16 ∧ ¬(9 < (0x0A#8).toNat / 16 ∨ ((0x0A#8).toNat / 16 = 9 ∧ 9 < (0x0A#8).toNat % 16)) ∧
    ¬9 < (0xA0#8).toNat % 16 ∧ 9 < (0xA0#8).toNat / 16 ∧ ¬9 < (0x99#8).toNat % 16 ∧ ¬9 < (0x99#8).toNat / 16 := by
  decide

/-- 99 + 99 with a carry in, by ADC B then DAA; and 00 + 00 by ADD B. -/
theorem witness_DaaCorrectsPackedBcdAddition :
    ∃ s t u : State, s.regs.a.toNat = 16 * 9 + 9 ∧ (s.readReg .b).toNat = 16 * 9 + 9 ∧ 1 = s.flags.cy.toNat ∧
      exec (.adcR .b) s = .next t ∧ exec .daa t = .next u :=
  ⟨at2000 [(.a, 0x99#8), (.b, 0x99#8)] (fl 0 0 0 0 1), _, _, by decide, by decide, by decide, rfl, rfl⟩

theorem witness_DaaCorrectsPackedBcdAddition_add :
    ∃ s t u : State, s.regs.a.toNat = 16 * 0 + 0 ∧ (s.readReg .b).toNat = 16 * 0 + 0 ∧ exec (.addR .b) s = .next t ∧
      exec .daa t = .next u :=
  ⟨at2000 [] f0, _, _, by decide, by decide, rfl, rfl⟩

/-- FF + 01 in the low byte, and 00 - 01. -/
theorem witness_CarryChains :
    (∃ s t u : State, s.regs.a = 0xFF#8 ∧ exec (.adi 0x01#8) s = .next t ∧
      exec (.aci 0xFF#8) (t.writeReg .a 0xFF#8) = .next u) ∧
    (∃ s t u : State, s.regs.a = 0x00#8 ∧ exec (.sui 0x01#8) s = .next t ∧
      exec (.sbi 0x00#8) (t.writeReg .a 0x00#8) = .next u) :=
  ⟨⟨at2000 [(.a, 0xFF#8)] f0, _, _, by decide, rfl, rfl⟩, ⟨at2000 [] f0, _, _, by decide, rfl, rfl⟩⟩

theorem witness_RotatesUndoEachOther :
    ∃ s a b c d e f g h : State, s.regs.a = 0xA7#8 ∧ exec .ral s = .next a ∧ exec .rar a = .next b ∧ exec .rar s = .next c ∧
      exec .ral c = .next d ∧ exec .rlc s = .next e ∧ exec .rrc e = .next f ∧ exec .rrc s = .next g ∧
      exec .rlc g = .next h :=
  ⟨at2000 [(.a, 0xA7#8)] f0, _, _, _, _, _, _, _, _, by decide, rfl, rfl, rfl, rfl, rfl, rfl, rfl, rfl⟩

/-- Each condition true in a state and false in another, for the jumps, calls and returns; and the last restart. -/
theorem witness_conditions :
    (∀ cc ∈ [Cond.nz, .nc, .po, .p], (at2000 [] f0).flags.cond cc = true ∧ (at2000 [] (fl 1 1 1 1 1)).flags.cond cc = false) ∧
    (∀ cc ∈ [Cond.z, .c, .pe, .m], (at2000 [] f0).flags.cond cc = false ∧ (at2000 [] (fl 1 1 1 1 1)).flags.cond cc = true) ∧
    7 < 8 := by decide

/-- CALL then RET, and RST 7 then RET, with the stack across 0000. -/
theorem witness_ReturnUndoesCall :
    (∃ s t u : State, s.sp = 0x0001#16 ∧ s.regionAt (s.sp - 1) = .ram ∧ s.regionAt (s.sp - 2) = .ram ∧
      exec (.call 0x2050#16) s = .next t ∧ exec .ret t = .next u) ∧
    (∃ s t u : State, s.sp = 0x0001#16 ∧ s.regionAt (s.sp - 1) = .ram ∧ s.regionAt (s.sp - 2) = .ram ∧
      exec (.rst 7) s = .next t ∧ exec .ret t = .next u) :=
  ⟨⟨State.reset.withSp 0x0001#16, _, _, rfl, rfl, rfl, rfl, rfl⟩, ⟨State.reset.withSp 0x0001#16, _, _, rfl, rfl, rfl, rfl, rfl⟩⟩

/-- A stack whose two bytes are not RAM, for the pushes, calls and entries. -/
theorem witness_Pushed :
    (mixed.withSp 0x3001#16).regionAt ((mixed.withSp 0x3001#16).sp - 1) ≠ .ram ∧
    (mixed.withSp 0x3001#16).regionAt ((mixed.withSp 0x3001#16).sp - 2) = .ram ∧
    (mixed.withSp 0x4102#16).regionAt ((mixed.withSp 0x4102#16).sp - 1) = .ram ∧
    (mixed.withSp 0x4101#16).regionAt ((mixed.withSp 0x4101#16).sp - 2) ≠ .ram := by decide

/-- The first and the last condition code. -/
theorem witness_ConditionsTestTheirFlag :
    [Cond.nz, .z, .nc, .c, .po, .pe, .p, .m][0]? = some .nz ∧ [Cond.nz, .z, .nc, .c, .po, .pe, .p, .m][7]? = some .m := by
  decide

theorem witness_PushPswResults :
    (State.reset.withParams { Config.Params.spec with flagUnused := some 0b101#3 }).params.flagUnused = some 0b101#3 := rfl

/-- PUSH PSW then POP PSW, and PUSH H then POP H, with a NOP in between. -/
theorem witness_PopUndoesPush :
    (∃ s t m u : State, exec .pushPsw s = .next t ∧ exec .nop t = .next m ∧ exec .popPsw m = .next u ∧
      s.regionAt (s.sp - 1) = .ram ∧ s.regionAt (s.sp - 2) = .ram ∧ m.sp = t.sp ∧
      m.readByte (s.sp - 1) = t.readByte (s.sp - 1) ∧ m.readByte (s.sp - 2) = t.readByte (s.sp - 2)) ∧
    (∃ s t m u : State, exec (.pushRp .hl) s = .next t ∧ exec .nop t = .next m ∧ exec (.popRp .hl) m = .next u ∧
      s.regionAt (s.sp - 1) = .ram ∧ s.regionAt (s.sp - 2) = .ram ∧ m.sp = t.sp ∧
      m.readByte (s.sp - 1) = t.readByte (s.sp - 1) ∧ m.readByte (s.sp - 2) = t.readByte (s.sp - 2) ∧
      Pair.hl.stacked = true) :=
  ⟨⟨State.reset, _, _, _, rfl, rfl, rfl, rfl, rfl, rfl, rfl, rfl⟩,
    ⟨State.reset, _, _, _, rfl, rfl, rfl, rfl, rfl, rfl, rfl, rfl, rfl⟩⟩

/-- Port FF is listed twice: the first pair counts. -/
theorem witness_InAndOutResults :
    let s := State.reset.withInputs { Inputs.idle with ports := [(0x00#8, 0x11#8), (0xFF#8, 0x22#8), (0xFF#8, 0x33#8)] }
    s.inputs.ports = [(0x00#8, 0x11#8)] ++ (0xFF#8, 0x22#8) :: [(0xFF#8, 0x33#8)] ∧
    ∀ x ∈ [((0x00#8 : Byte), (0x11#8 : Byte))], x.1 ≠ 0xFF#8 := ⟨rfl, by simp⟩

theorem witness_EiAndDiResults :
    (State.reset.withParams { Config.Params.spec with eiDelay := .none }).params.eiDelay = .none ∧
    (State.reset.withParams { Config.Params.spec with eiDelay := .oneInstruction }).params.eiDelay = .oneInstruction :=
  ⟨rfl, rfl⟩

theorem witness_RimResults :
    State.reset.params.rimLayout = Config.RimLayout.spec ∧ State.reset.params.rimLayout.toList[0]? = some .sid ∧
    State.reset.params.rimLayout.toList[7]? = some .m55 := by decide

/-- Each enable of SIM on and off. -/
theorem witness_SimResults :
    (0xFF#8).getLsbD 3 = true ∧ (0xFF#8).getLsbD 4 = true ∧ (0xFF#8).getLsbD 6 = true ∧ (0x00#8).getLsbD 3 = false ∧
    (0x00#8).getLsbD 4 = false ∧ (0x00#8).getLsbD 6 = false := by decide

/-- CALL at FFFE, its operand bytes at FFFF and 0000. -/
theorem witness_StepRunsTheDecodedInstruction :
    let s := (State.reset.withPc 0xFFFE#16).withMem [(0, 0x30#8), (0xFFFE, 0xCD#8), (0xFFFF, 0x00#8)]
    s.sample.boundary = .run ∧
    decode [s.sample.begin.readByte s.pc, s.sample.begin.readByte (s.pc + 1), s.sample.begin.readByte (s.pc + 2)] =
      .instr (.call 0x3000#16) [] := by decide

/-- Halted with a masked request pending: nothing is effective; and halted with TRAP, which ends the Halt state. -/
theorem witness_HaltedUntilInterruptOrReset :
    (let s := boundary { State.reset.ctl with halted := true, ff75 := true } Inputs.idle
     s.ctl.halted = true ∧ s.nextInputs.reset = false ∧ s.nextInputs.cut = none ∧
     ∀ src ∈ [IntSource.trap, .rst75, .rst65, .rst55, .external], s.sample.effective src = false) ∧
    (let s := boundary { State.reset.ctl with halted := true } { Inputs.idle with trapReq := true }
     s.ctl.halted = true ∧ s.sample.boundary = .enter .trap ∧ steps s (fun t => !t.ctl.halted) = true) := by decide

/-- Each internal source accepted. -/
theorem witness_InternalInterruptEntry :
    (boundary State.reset.ctl { Inputs.idle with trapReq := true }).sample.accepted = some .trap ∧
    (boundary open0 { Inputs.idle with i75Event := true }).sample.accepted = some .rst75 ∧
    (boundary open0 { Inputs.idle with i65Req := true }).sample.accepted = some .rst65 ∧
    (boundary open0 { Inputs.idle with i55Req := true }).sample.accepted = some .rst55 ∧
    (boundary open0 { Inputs.idle with i55Req := true }).nextInputs.reset = false ∧
    (boundary open0 { Inputs.idle with i55Req := true }).nextInputs.cut = none := by decide

/-- The first and the last RST byte, and a byte that is none. -/
theorem witness_ExternalInterruptEntry :
    (boundary open0 { Inputs.idle with extOp := some 0xC7#8 }).sample.accepted = some .external ∧
    0xC7#8 = BitVec.ofNat 8 (0xC7 + 8 * 0) ∧
    (boundary open0 { Inputs.idle with extOp := some 0xFF#8 }).sample.accepted = some .external ∧
    0xFF#8 = BitVec.ofNat 8 (0xC7 + 8 * 7) ∧
    (boundary open0 { Inputs.idle with extOp := some 0xCD#8 }).sample.accepted = some .external ∧
    (boundary open0 { Inputs.idle with extOp := some 0xFF#8 }).nextInputs.cut = none ∧
    (∀ n < 8, 0xCD#8 ≠ BitVec.ofNat 8 (0xC7 + 8 * n)) ∧
    (boundary open0 { Inputs.idle with extOp := some 0xCD#8 }).nextInputs.extOp = some 0xCD#8 := by decide

/-- Each source accepted, and TRAP while EI_shadow is 1. -/
theorem witness_AcceptedInterruptsAreEnabled :
    (∀ x ∈ [(IntSource.trap, { Inputs.idle with trapReq := true }), (.rst75, { Inputs.idle with i75Event := true }),
        (.rst65, { Inputs.idle with i65Req := true }), (.rst55, { Inputs.idle with i55Req := true }),
        (.external, { Inputs.idle with extOp := some 0xC7#8 })],
      (boundary open0 x.2).sample.accepted = some x.1) ∧
    (boundary { open0 with eiShadow := true } { Inputs.idle with trapReq := true }).sample.accepted = some .trap ∧
    (boundary { open0 with eiShadow := true } { Inputs.idle with trapReq := true }).sample.ctl.eiShadow = true := by decide

theorem witness_EffectiveRequestsAreTaken :
    (let s := boundary open0 { Inputs.idle with i55Req := true, extOp := some 0xC7#8 }
     s.params.wf ∧ s.nextInputs.reset = false ∧ s.sample.effective .external = true ∧ s.ctl.eiShadow = false) ∧
    (let s := boundary { open0 with eiShadow := true } { Inputs.idle with trapReq := true }
     s.params.wf ∧ s.nextInputs.reset = false ∧ s.sample.effective .trap = true ∧ s.nextInputs.cut = none) ∧
    (let s := boundary open0 { Inputs.idle with i55Req := true, cut := some (cutAt 1 none) }
     s.params.wf ∧ s.nextInputs.reset = false ∧ s.sample.effective .rst55 = true ∧
     s.nextInputs.cut = some (cutAt 1 none)) := by decide

theorem witness_TrapCannotBeDisabled :
    (let s := boundary { State.reset.ctl with halted := true, eiShadow := true } { Inputs.idle with trapReq := true }
     s.nextInputs.reset = false ∧ s.nextInputs.trapReq = true ∧ s.params.priority.head? = some .trap ∧
     s.nextInputs.cut = none) ∧
    (let s := boundary open0 { Inputs.idle with trapReq := true, cut := some (cutAt 0 none) }
     s.nextInputs.reset = false ∧ s.nextInputs.trapReq = true ∧ s.params.priority.head? = some .trap ∧
     s.nextInputs.cut = some (cutAt 0 none)) := by decide

/-- Reset at a boundary; in the Halt state; inside a PUSH, in its second write; inside the entry to TRAP; and inside the entry
by an inserted RST 7. -/
theorem witness_ResetEventResults :
    (boundary { open0 with halted := true } { Inputs.idle with reset := true }).nextInputs.reset = true ∧
    (let s := boundary { open0 with halted := true } { Inputs.idle with cut := some (cutAt 0 none) }
     s.ctl.halted = true ∧ s.sample.accepted = none ∧ s.nextInputs.cut ≠ none) ∧
    (let s := pushCut (cutAt 1 (some 0x5A#8))
     s.nextInputs.reset = false ∧ s.nextInputs.cut = some (cutAt 1 (some 0x5A#8)) ∧ s.sample.accepted = none ∧
     s.ctl.halted = false ∧ s.sample.begin.instrAt = .pushRp .bc ∧
     (s.sample.begin.accesses (.pushRp .bc)).tail[1]? = some (.write 0x20FE#16 0x34#8) ∧
     s.sample.begin.regionAt 0x20FE#16 = .ram) ∧
    (let s := boundary open0 { Inputs.idle with trapReq := true, cut := some (cutAt 2 none) }
     s.nextInputs.reset = false ∧ s.nextInputs.cut = some (cutAt 2 none) ∧ s.sample.accepted = some .trap) ∧
    (let s := boundary open0 { Inputs.idle with extOp := some 0xFF#8, cut := some (cutAt 0 none) }
     s.nextInputs.reset = false ∧ s.nextInputs.cut = some (cutAt 0 none) ∧ s.sample.accepted = some .external ∧
     s.nextInputs.extOp = some (BitVec.ofNat 8 (0xC7 + 8 * 7))) := by decide

theorem witness_ResetEventResults_defined : isDefined (.pushRp .bc) := by
  simp [isDefined, undefinedOpcodes]

/-- A state of the invariant with EI_shadow set and memory listed, from which a step runs. -/
theorem witness_StepKeepsTheInvariant :
    ∃ s t : State, s.Inv ∧ s.ctl.eiShadow = true ∧ s.mem = [(0x2345, 0x00#8)] ∧ step s = .next t :=
  ⟨boundary { open0 with eiShadow := true } Inputs.idle, _,
    ⟨by decide, fun _ => ⟨by decide, by decide, by decide⟩, by decide⟩, by decide, by decide, rfl⟩

/-- XTHL and OUT complete, for the statements over every instruction; RIM and IN are the two set apart. -/
theorem witness_every_instruction :
    (∃ t, exec .xthl State.reset = .next t) ∧ (∃ t, exec (.outPort 0x02#8) State.reset = .next t) ∧
    Instr.xthl ≠ .rim ∧ (∀ port, Instr.xthl ≠ .inPort port) ∧ (∀ port, Instr.xthl ≠ .outPort port) ∧ Instr.xthl ≠ .sim :=
  ⟨⟨_, rfl⟩, ⟨_, rfl⟩, by decide, by simp, by simp, by decide⟩

/-- A flag, SP and the control flip-flops that an instruction does not write, of those that the tables tell apart. -/
theorem witness_EveryInstructionKeepsItsFrame :
    spWritten (.inx .hl) = false ∧ ctlWritten .nop = false ∧ (flagsWritten (.inrR .a)).cy = false ∧
    (flagsWritten .rlc).s = false ∧ (flagsWritten .rlc).z = false ∧ (flagsWritten .rlc).ac = false ∧
    (flagsWritten .rlc).p = false := by decide

theorem witness_isDefined : isDefined .hlt ∧ isDefined (.jnz 0x1234#16) := by
  simp [isDefined, undefinedOpcodes]

/-- EI sets IE, DI resets it, SIM changes a mask, FF75 and SOD, HLT begins the Halt state, an RST 7.5 event sets FF75, TRAP
ends the Halt state, and a NOP ends EI_shadow, each in one step. -/
theorem witness_ControlStateChangesOnlyAsDescribed :
    (let s := State.reset.withMem [(0, 0xFB#8)]
     s.ctl.ie = false ∧ steps s (fun t => t.ctl.ie) = true) ∧
    (let s := (State.reset.withMem [(0, 0xF3#8)]).withCtl open0
     s.ctl.ie = true ∧ steps s (fun t => !t.ctl.ie) = true) ∧
    (let s := ((State.reset.withMem [(0, 0x30#8)]).writeReg .a 0xD8#8).withCtl { State.reset.ctl with ff75 := true }
     s.ctl.ff75 = true ∧ s.ctl.sod = false ∧
     steps s (fun t => !t.ctl.ff75 && !t.ctl.m75 && t.ctl.sod) = true) ∧
    (let s := State.reset.withMem [(0, 0x76#8)]
     s.ctl.halted = false ∧ steps s (fun t => t.ctl.halted) = true) ∧
    (let s := boundary State.reset.ctl { Inputs.idle with run75Event := true }
     s.ctl.ff75 = false ∧ steps s (fun t => t.ctl.ff75) = true) ∧
    (let s := boundary { open0 with halted := true } { Inputs.idle with trapReq := true }
     s.ctl.halted = true ∧ steps s (fun t => !t.ctl.halted) = true) ∧
    (let s := boundary { open0 with eiShadow := true } Inputs.idle
     s.ctl.eiShadow = true ∧ steps s (fun t => !t.ctl.eiShadow) = true) := by decide

/-- EI begins EI_shadow under one_instruction. -/
theorem witness_ControlStateChangesOnlyAsDescribed_eiShadow :
    (let s := (State.reset.withMem [(0, 0xFB#8)]).withParams { Config.Params.spec with eiDelay := .oneInstruction }
     s.ctl.eiShadow = false ∧ steps s (fun t => t.ctl.eiShadow) = true) := by decide

/-- LDA reads 0003 and its own three bytes: another memory with the same bytes there, and another byte elsewhere. -/
theorem witness_MeaningsFollowTheBusTable :
    let s := State.reset.withMem [(0, 0x3A#8), (1, 0x03#8), (2, 0x00#8), (3, 0x77#8), (4, 0x11#8)]
    let m : Memory := [(0, 0x3A#8), (1, 0x03#8), (2, 0x00#8), (3, 0x77#8), (4, 0x99#8)]
    s.accesses (.lda 0x0003#16) = [.read 0#16, .read 1#16, .read 2#16, .read 3#16] ∧ m ≠ s.mem ∧
    (s.withMem m).readByte 0#16 = s.readByte 0#16 ∧ (s.withMem m).readByte 1#16 = s.readByte 1#16 ∧
    (s.withMem m).readByte 2#16 = s.readByte 2#16 ∧ (s.withMem m).readByte 3#16 = s.readByte 3#16 :=
  ⟨rfl, by decide, rfl, rfl, rfl, rfl⟩

/-- IN 02 reads port 02: another answer that presents the same there. RIM reads three lines: another answer with the same
lines. -/
theorem witness_MeaningsFollowTheBusTable_inputs :
    let s := State.reset.withInputs { Inputs.idle with ports := [(0x02#8, 0x42#8)] }
    let x := { Inputs.idle with ports := [(0x01#8, 0x11#8), (0x02#8, 0x42#8)] }
    s.accesses (.inPort 0x02#8) = [.read 0#16, .read 1#16, .input 0x02#8] ∧
    (s.withInputs x).portIn 0x02#8 = s.portIn 0x02#8 ∧ x.ports ≠ s.inputs.ports ∧ x.sid = s.inputs.sid ∧
    x.run65 = s.inputs.run65 ∧ x.run55 = s.inputs.run55 :=
  ⟨rfl, rfl, by decide, rfl, rfl, rfl⟩

theorem witness_MemoryReadsWhatWasWritten :
    mixed.regionAt 0x4100#16 = .ram ∧ mixed.regionAt (0x4100#16 + 1) = .ram ∧ mixed.regionAt 0x30FF#16 ≠ .ram ∧
    (0x4101#16 : Word) ≠ 0x4100#16 := by decide

theorem witness_PlacedInstructionRunsNext :
    decodeTableWord 24 0x2050CD = some (.call 0x2050#16) ∧ decodeTableWord 8 0xDD = some .undefinedDD := by decide

end Sys2Proof.Tests
end

section
/-! PROOFS. What every instruction keeps: one lemma per shape of result, then one case per instruction. Settles O53. -/

namespace Sys2Proof.Machine

/-- Every flag that `w` does not mark is in `g` as in `f` (10_state.md R31). -/
def KeepsFlags (w f g : Flags) : Prop :=
  (w.s = false → g.s = f.s) ∧ (w.z = false → g.z = f.z) ∧ (w.ac = false → g.ac = f.ac) ∧ (w.p = false → g.p = f.p) ∧
    (w.cy = false → g.cy = f.cy)

theorem keepsFlags_of_eq {w f g : Flags} (h : g = f) : KeepsFlags w f g := by
  subst h
  exact ⟨fun _ => rfl, fun _ => rfl, fun _ => rfl, fun _ => rfl, fun _ => rfl⟩

/-- A table entry that marks every flag allows any flags after it. -/
theorem keepsFlags_all (f g : Flags) : KeepsFlags { s := true, z := true, ac := true, p := true, cy := true } f g :=
  ⟨nofun, nofun, nofun, nofun, nofun⟩

/-- INR and DCR give CY as it was (41_arithmetic.md R155 to R158). -/
theorem keepsFlags_of_cy {f g : Flags} (h : g.cy = f.cy) :
    KeepsFlags { s := true, z := true, ac := true, p := true, cy := false } f g :=
  ⟨nofun, nofun, nofun, nofun, fun _ => h⟩

/-- DAD, the rotates, CMC and STC give the other four flags as they were. -/
theorem keepsFlags_withCy (f : Flags) (c : Bool) :
    KeepsFlags { s := false, z := false, ac := false, p := false, cy := true } f (f.withCy c) :=
  ⟨fun _ => rfl, fun _ => rfl, fun _ => rfl, fun _ => rfl, nofun⟩

/-- From `s` to `t` nothing changes that the tables of Machine/Writes.lean and Machine/Bus.lean do not name for `i`. -/
structure InFrame (i : Instr) (s t : State) : Prop where
  regs : KeepsRegs (regsWritten i) s t
  bytes : KeepsBytes (s.storedAddresses i) s t
  world : KeepsWorld s t
  sp : spWritten i = false → t.sp = s.sp
  ctl : ctlWritten i = false → t.ctl = s.ctl
  out : (∀ port, i ≠ .outPort port) → t.outTrace = s.outTrace
  sod : i ≠ .sim → t.sodTrace = s.sodTrace
  flags : KeepsFlags (flagsWritten i) s.flags t.flags

/-- The instruction keeps its frame in every state. -/
def Framed (i : Instr) : Prop := ∀ s t, exec i s = .next t → InFrame i s t

theorem framed_of_next {i : Instr} {f : State → State} (he : ∀ s, exec i s = .next (f s))
    (hf : ∀ s, InFrame i s (f s)) : Framed i := by
  intro s t h
  obtain rfl : f s = t := Host.Outcome.next.inj ((he s).symm.trans h)
  exact hf s

theorem framed_of_refused {i : Instr} {r : Refusal} (he : ∀ s, exec i s = .refused r) : Framed i :=
  fun s _ h => nomatch (he s).symm.trans h

theorem KeepsRegs.mono {rs qs : List Reg} {s t : State} (h : KeepsRegs rs s t) (hq : rs ⊆ qs) : KeepsRegs qs s t :=
  fun r hr => h r fun hm => hr (hq hm)

theorem KeepsBytes.mono {as bs : List Word} {s t : State} (h : KeepsBytes as s t) (hb : as ⊆ bs) : KeepsBytes bs s t :=
  fun a ha => h a fun hm => ha (hb hm)

theorem KeepsRegs.of_eq {rs : List Reg} {s t : State} (h : t.regs = s.regs) : KeepsRegs rs s t :=
  fun _ _ => by simp only [State.readReg, h]

/-- The common frame of Safety.lean, with registers and bytes that the tables name, is inside the instruction's. -/
theorem inFrame_of_keeps {i : Instr} {s t : State} {rs : List Reg} {as : List Word} (hk : Keeps rs as s t)
    (hr : rs ⊆ regsWritten i) (ha : as ⊆ s.storedAddresses i) (hs : spWritten i = false → t.sp = s.sp)
    (hf : KeepsFlags (flagsWritten i) s.flags t.flags) : InFrame i s t := by
  obtain ⟨hregs, hbytes, ⟨hctl, hout, hsod⟩, hworld⟩ := hk
  exact ⟨hregs.mono hr, hbytes.mono ha, hworld, hs, fun _ => hctl, fun _ => hout, fun _ => hsod, hf⟩

/-- A state with the memory, the control flip-flops, the outputs and the world of the one before is in the frame if its
registers, SP and flags are. -/
theorem inFrame_of_fields {i : Instr} {s t : State} {rs : List Reg} (hk : KeepsRegs rs s t) (hr : rs ⊆ regsWritten i)
    (hs : spWritten i = false → t.sp = s.sp) (hf : KeepsFlags (flagsWritten i) s.flags t.flags)
    (hm : t.mem = s.mem := by rfl) (hc : KeepsControl s t := by exact ⟨rfl, rfl, rfl⟩)
    (hw : KeepsWorld s t := by exact ⟨rfl, rfl, rfl, rfl⟩) : InFrame i s t := by
  obtain ⟨hctl, hout, hsod⟩ := hc
  exact inFrame_of_keeps (keeps_of_fields (as := []) hk hm hctl hout hsod hw) hr (List.nil_subset _) hs hf

/-! One lemma per shape of result: an instruction that ends in it keeps its frame, if the tables name what the shape
changes. -/

theorem framed_of_load {i : Instr} {r : Reg} {v : State → Byte} {n : Nat}
    (he : ∀ s, exec i s = .next ((s.writeReg r (v s)).advance n)) (hr : r ∈ regsWritten i) : Framed i :=
  framed_of_next he fun _ =>
    inFrame_of_fields (keepsRegs_set rfl) (by simpa using hr) (fun _ => rfl) (keepsFlags_of_eq rfl)

theorem framed_of_store {i : Instr} {a : State → Word} {v : State → Byte} {n : Nat}
    (he : ∀ s, exec i s = .next ((s.writeByte (a s) (v s)).advance n)) (ha : ∀ s, a s ∈ s.storedAddresses i) :
    Framed i :=
  framed_of_next he fun s =>
    inFrame_of_keeps ⟨.of_eq rfl, keepsBytes_of_writeByte fun _ => rfl, ⟨rfl, rfl, rfl⟩, ⟨rfl, rfl, rfl, rfl⟩⟩
      (List.nil_subset _) (by simpa using ha s) (fun _ => rfl) (keepsFlags_of_eq rfl)

theorem State.writePair_sp_of_ne {p : Pair} (h : (p == .sp) = false) (s : State) (w : Word) :
    (s.writePair p w).sp = s.sp := by
  cases p with
  | bc | de | hl => rfl
  | sp => cases h

theorem framed_of_writePair {i : Instr} {p : Pair} {w : State → Word} {n : Nat}
    (he : ∀ s, exec i s = .next ((s.writePair p (w s)).advance n)) (hr : regsWritten i = pairRegs p)
    (hs : spWritten i = (p == .sp)) : Framed i :=
  framed_of_next he fun s =>
    inFrame_of_fields (keepsRegs_writePair rfl) (hr ▸ List.Subset.refl _)
      (fun h => State.writePair_sp_of_ne (hs ▸ h) s (w s)) (keepsFlags_of_eq (by simp)) (by simp)
      ⟨by simp, by simp, by simp⟩ ⟨by simp, by simp, by simp, by simp⟩

theorem framed_of_aluResult {i : Instr} {r : State → AluResult} {n : Nat}
    (he : ∀ s, exec i s = .next (s.aluResult (r s) n)) (hr : .a ∈ regsWritten i)
    (hf : flagsWritten i = { s := true, z := true, ac := true, p := true, cy := true }) : Framed i :=
  framed_of_next he fun s =>
    inFrame_of_keeps (aluResult_spec s (r s) n) (by simpa using hr) (List.nil_subset _) (fun _ => rfl)
      (hf ▸ keepsFlags_all _ _)

theorem framed_of_compareResult {i : Instr} {r : State → AluResult} {n : Nat}
    (he : ∀ s, exec i s = .next (s.compareResult (r s) n))
    (hf : flagsWritten i = { s := true, z := true, ac := true, p := true, cy := true }) : Framed i :=
  framed_of_next he fun s =>
    inFrame_of_keeps (compareResult_spec s (r s) n) (List.nil_subset _) (List.nil_subset _) (fun _ => rfl)
      (hf ▸ keepsFlags_all _ _)

theorem framed_of_rotateResult {i : Instr} {r : State → Byte × Bool}
    (he : ∀ s, exec i s = .next (s.rotateResult (r s))) (hr : .a ∈ regsWritten i)
    (hf : flagsWritten i = { s := false, z := false, ac := false, p := false, cy := true }) : Framed i :=
  framed_of_next he fun s =>
    inFrame_of_keeps (rotateResult_spec s (r s)) (by simpa using hr) (List.nil_subset _) (fun _ => rfl)
      (hf ▸ keepsFlags_withCy _ _)

/-- INR r and DCR r. -/
theorem framed_of_countReg {i : Instr} {rd : Reg} {r : State → AluResult}
    (he : ∀ s, exec i s = .next (((s.writeReg rd (r s).value).withFlags (r s).flags).advance 1))
    (hcy : ∀ s, (r s).flags.cy = s.flags.cy) (hr : rd ∈ regsWritten i)
    (hf : flagsWritten i = { s := true, z := true, ac := true, p := true, cy := false }) : Framed i :=
  framed_of_next he fun s =>
    inFrame_of_fields (keepsRegs_set rfl) (by simpa using hr) (fun _ => rfl) (hf ▸ keepsFlags_of_cy (hcy s))

/-- INR M and DCR M. -/
theorem framed_of_countM {i : Instr} {r : State → AluResult}
    (he : ∀ s, exec i s = .next (((s.writeM (r s).value).withFlags (r s).flags).advance 1))
    (hcy : ∀ s, (r s).flags.cy = s.flags.cy) (ha : ∀ s : State, s.hl ∈ s.storedAddresses i)
    (hf : flagsWritten i = { s := true, z := true, ac := true, p := true, cy := false }) : Framed i :=
  framed_of_next he fun s =>
    inFrame_of_keeps ⟨.of_eq rfl, keepsBytes_of_writeByte fun _ => rfl, ⟨rfl, rfl, rfl⟩, ⟨rfl, rfl, rfl, rfl⟩⟩
      (List.nil_subset _) (by simpa using ha s) (fun _ => rfl) (hf ▸ keepsFlags_of_cy (hcy s))

/-- CMC and STC. -/
theorem framed_of_withCy {i : Instr} {c : State → Bool}
    (he : ∀ s, exec i s = .next ((s.withFlags (s.flags.withCy (c s))).advance 1))
    (hf : flagsWritten i = { s := false, z := false, ac := false, p := false, cy := true }) : Framed i :=
  framed_of_next he fun _ =>
    inFrame_of_fields (.of_eq rfl) (List.nil_subset _) (fun _ => rfl) (hf ▸ keepsFlags_withCy _ _)

/-! Transfers of control: PC is in no instruction's frame. -/

theorem inFrame_withPc (i : Instr) (s : State) (a : Word) : InFrame i s (s.withPc a) :=
  inFrame_of_fields (.of_eq rfl) (List.nil_subset _) (fun _ => rfl) (keepsFlags_of_eq rfl)

/-- A state whose memory and SP are those of `Push16`, the rest but PC as before. -/
theorem inFrame_of_push16 {i : Instr} {s t : State} {w v : Word} (ht : t = (s.push16 w).withPc v)
    (ha : [s.sp - 1, s.sp - 2] ⊆ s.storedAddresses i) (hs : spWritten i = true) : InFrame i s t := by
  subst ht
  exact inFrame_of_keeps ⟨.of_eq rfl, keepsBytes_of_push16 fun _ => rfl, ⟨rfl, rfl, rfl⟩, ⟨rfl, rfl, rfl, rfl⟩⟩
    (List.nil_subset _) ha (by simp [hs]) (keepsFlags_of_eq rfl)

theorem inFrame_returnFrom {i : Instr} (hs : spWritten i = true) (s : State) : InFrame i s s.returnFrom :=
  inFrame_of_fields (.of_eq rfl) (List.nil_subset _) (by simp [hs]) (keepsFlags_of_eq rfl)

theorem framed_of_jump {i : Instr} {a : State → Word} (he : ∀ s, exec i s = .next (s.withPc (a s))) : Framed i :=
  framed_of_next he fun s => inFrame_withPc i s (a s)

theorem framed_of_jumpIf {i : Instr} {cc : Cond} {a : Word} (he : ∀ s, exec i s = .next (s.jumpIf cc a)) :
    Framed i :=
  framed_of_next he fun s => by
    unfold State.jumpIf
    split
    · exact inFrame_withPc i s a
    · exact inFrame_withPc i s (s.nextPc 3)

/-- CALL, RST, PUSH. -/
theorem framed_of_push {i : Instr} {w v : State → Word} (he : ∀ s, exec i s = .next ((s.push16 (w s)).withPc (v s)))
    (ha : ∀ s : State, s.storedAddresses i = [s.sp - 1, s.sp - 2]) (hs : spWritten i = true) : Framed i :=
  framed_of_next he fun s => inFrame_of_push16 rfl (ha s ▸ List.Subset.refl _) hs

theorem framed_of_callIf {i : Instr} {cc : Cond} {a : Word} (he : ∀ s, exec i s = .next (s.callIf cc a))
    (hd : ∀ s : State, s.dataAccesses i = if s.flags.cond cc then s.pushAccesses (s.nextPc 3) else [])
    (hs : spWritten i = true) : Framed i :=
  framed_of_next he fun s => by
    unfold State.callIf
    split
    next hc => exact inFrame_of_push16 rfl (by simp [State.storedAddresses, hd, hc, State.pushAccesses]) hs
    next => exact inFrame_withPc i s (s.nextPc 3)

theorem framed_of_return {i : Instr} (he : ∀ s, exec i s = .next s.returnFrom) (hs : spWritten i = true) : Framed i :=
  framed_of_next he (inFrame_returnFrom hs)

theorem framed_of_returnIf {i : Instr} {cc : Cond} (he : ∀ s, exec i s = .next (s.returnIf cc))
    (hs : spWritten i = true) : Framed i :=
  framed_of_next he fun s => by
    unfold State.returnIf
    split
    · exact inFrame_returnFrom hs s
    · exact inFrame_withPc i s (s.nextPc 1)

/-! The instructions with a shape of their own. -/

/-- Two bytes written, at the two addresses that the table of 20_memory.md R57 lists. -/
theorem keepsBytes_of_writeByte_writeByte {s t : State} {a b : Word} {v w : Byte}
    (h : ∀ x, t.readByte x = ((s.writeByte a v).writeByte b w).readByte x) : KeepsBytes [a, b] s t := by
  intro x hx
  obtain ⟨ha, hb⟩ : x ≠ a ∧ x ≠ b := by simpa using hx
  rw [h, State.readByte_writeByte_other _ _ hb, State.readByte_writeByte_other _ _ ha]

/-- Two registers written keep the others. -/
theorem keepsRegs_set_set {s t : State} {r q : Reg} {v w : Byte} (h : t.regs = (s.regs.set r v).set q w) :
    KeepsRegs [r, q] s t := by
  intro x hx
  obtain ⟨hr, hq⟩ : x ≠ r ∧ x ≠ q := by simpa using hx
  simp only [State.readReg, h, Regs.get_set_other _ _ hq, Regs.get_set_other _ _ hr]

theorem framed_lhld (a : Word) : Framed (.lhld a) :=
  framed_of_next (fun _ => rfl) fun _ =>
    inFrame_of_fields (keepsRegs_set_set (r := .l) (q := .h) rfl) (by simp [regsWritten]) (fun _ => rfl)
      (keepsFlags_of_eq rfl)

theorem framed_shld (a : Word) : Framed (.shld a) :=
  framed_of_next (fun _ => rfl) fun _ =>
    inFrame_of_keeps
      ⟨.of_eq rfl, keepsBytes_of_writeByte_writeByte fun _ => rfl, ⟨rfl, rfl, rfl⟩, ⟨rfl, rfl, rfl, rfl⟩⟩
      (List.nil_subset _) (List.Subset.refl _) (fun _ => rfl) (keepsFlags_of_eq rfl)

theorem framed_xchg : Framed .xchg :=
  framed_of_next (fun _ => rfl) fun _ =>
    inFrame_of_fields (rs := regsWritten .xchg)
      (fun r hr => by
        cases r with
        | a | b | c => rfl
        | d | e | h | l => simp [regsWritten] at hr)
      (List.Subset.refl _) (fun _ => rfl) (keepsFlags_of_eq rfl)

theorem framed_dad (p : Pair) : Framed (.dad p) :=
  framed_of_next (fun _ => rfl) fun _ =>
    inFrame_of_fields (keepsRegs_set_set rfl) (List.Subset.refl _) (fun _ => rfl) (keepsFlags_withCy _ _)

theorem framed_popRp (p : Pair) : Framed (.popRp p) :=
  framed_of_next (fun _ => rfl) fun s =>
    inFrame_of_fields (keepsRegs_writePair (s := s.drop16) rfl) (List.Subset.refl _) nofun
      (keepsFlags_of_eq (by simp)) (by simp) ⟨by simp, by simp, by simp⟩ ⟨by simp, by simp, by simp, by simp⟩

theorem framed_popPsw : Framed .popPsw :=
  framed_of_next (fun _ => rfl) fun _ =>
    inFrame_of_fields (keepsRegs_set rfl) (List.Subset.refl _) nofun (keepsFlags_all _ _)

theorem framed_xthl : Framed .xthl :=
  framed_of_next (fun _ => rfl) fun _ =>
    inFrame_of_keeps
      ⟨keepsRegs_set_set rfl, keepsBytes_of_writeByte_writeByte fun _ => rfl, ⟨rfl, rfl, rfl⟩, ⟨rfl, rfl, rfl, rfl⟩⟩
      (List.Subset.refl _) (List.Subset.refl _) (fun _ => rfl) (keepsFlags_of_eq rfl)

theorem framed_sphl : Framed .sphl :=
  framed_of_next (fun _ => rfl) fun _ =>
    inFrame_of_fields (.of_eq rfl) (List.nil_subset _) nofun (keepsFlags_of_eq rfl)

/-- OUT alone makes an output event. -/
theorem framed_outPort (port : Byte) : Framed (.outPort port) :=
  framed_of_next (fun _ => rfl) fun _ =>
    ⟨.of_eq rfl, fun _ _ => rfl, ⟨rfl, rfl, rfl, rfl⟩, fun _ => rfl, fun _ => rfl, fun h => absurd rfl (h port),
      fun _ => rfl, keepsFlags_of_eq rfl⟩

/-- EI, DI and HLT write the control flip-flops. -/
theorem framed_of_withCtl {i : Instr} {c : State → Control}
    (he : ∀ s, exec i s = .next ((s.withCtl (c s)).advance 1)) (hc : ctlWritten i = true) : Framed i :=
  framed_of_next he fun _ =>
    ⟨.of_eq rfl, fun _ _ => rfl, ⟨rfl, rfl, rfl, rfl⟩, fun _ => rfl, by simp [hc], fun _ => rfl, fun _ => rfl,
      keepsFlags_of_eq rfl⟩

/-- SIM writes the control flip-flops and alone latches SOD values. -/
theorem framed_sim : Framed .sim :=
  framed_of_next (fun _ => rfl) fun _ =>
    ⟨.of_eq rfl, fun _ _ => rfl, ⟨rfl, rfl, rfl, rfl⟩, fun _ => rfl, nofun, fun _ => rfl, fun h => absurd rfl h,
      keepsFlags_of_eq rfl⟩

/-- Every instruction keeps its frame. -/
theorem exec_framed (i : Instr) : Framed i := by
  cases i with
  | movRR | movRM | mviR | lda | ldax | cma | inPort | rim =>
    exact framed_of_load (fun _ => rfl) List.mem_cons_self
  | movMR | mviM | sta | stax => exact framed_of_store (fun _ => rfl) fun _ => List.mem_cons_self
  | lxi | inx | dcx => exact framed_of_writePair (fun _ => rfl) rfl rfl
  | addR | addM | adcR | adcM | subR | subM | sbbR | sbbM | anaR | anaM | xraR | xraM | oraR | oraM | adi | aci | sui
  | sbi | ani | xri | ori | daa =>
    exact framed_of_aluResult (fun _ => rfl) List.mem_cons_self rfl
  | cmpR | cmpM | cpi => exact framed_of_compareResult (fun _ => rfl) rfl
  | rlc | rrc | ral | rar => exact framed_of_rotateResult (fun _ => rfl) List.mem_cons_self rfl
  | inrR | dcrR => exact framed_of_countReg (fun _ => rfl) (fun _ => rfl) List.mem_cons_self rfl
  | inrM | dcrM => exact framed_of_countM (fun _ => rfl) (fun _ => rfl) (fun _ => List.mem_cons_self) rfl
  | cmc | stc => exact framed_of_withCy (fun _ => rfl) rfl
  | jmp | pchl | nop => exact framed_of_jump fun _ => rfl
  | jnz | jz | jnc | jc | jpo | jpe | jp | jm => exact framed_of_jumpIf fun _ => rfl
  | call | rst | pushRp | pushPsw => exact framed_of_push (fun _ => rfl) (fun _ => rfl) rfl
  | cnz | cz | cnc | cc | cpo | cpe | cp | cm => exact framed_of_callIf (fun _ => rfl) (fun _ => rfl) rfl
  | ret => exact framed_of_return (fun _ => rfl) rfl
  | rnz | rz | rnc | rc | rpo | rpe | rp | rm => exact framed_of_returnIf (fun _ => rfl) rfl
  | lhld a => exact framed_lhld a
  | shld a => exact framed_shld a
  | xchg => exact framed_xchg
  | dad p => exact framed_dad p
  | popRp p => exact framed_popRp p
  | popPsw => exact framed_popPsw
  | xthl => exact framed_xthl
  | sphl => exact framed_sphl
  | outPort port => exact framed_outPort port
  | ei | di | hlt => exact framed_of_withCtl (fun _ => rfl) rfl
  | sim => exact framed_sim
  | undefined08 | undefined10 | undefined18 | undefined28 | undefined38 | undefinedCB | undefinedD9 | undefinedDD
  | undefinedED | undefinedFD =>
    exact framed_of_refused fun _ => rfl

/-- Settles O53: the frame of each instruction, by the shape of its result. -/
theorem everyInstructionKeepsItsFrame : Obligations.EveryInstructionKeepsItsFrame := by
  intro i s t h
  obtain ⟨hregs, hbytes, hworld, hsp, hctl, hout, hsod, hs, hz, hac, hp, hcy⟩ := exec_framed i s t h
  exact ⟨hregs, hbytes, hworld, hsp, hctl, hout, hsod, hs, hz, hac, hp, hcy⟩

end Sys2Proof.Machine
end

section
/-! PROOFS. What sees the environment: settles O56. -/

namespace Sys2Proof.Machine

/-- Two runs of the instruction from states that differ in the environment's answer alone differ in nothing else after
it. -/
def Blind (i : Instr) : Prop :=
  ∀ (s : State) (x : Inputs) (t : State), exec i s = .next t → exec i (s.withInputs x) = .next (t.withInputs x)

/-- A meaning is blind if it commutes with a new answer of the environment. -/
theorem blind_of_next {i : Instr} {f : State → State} (he : ∀ s, exec i s = .next (f s))
    (hf : ∀ s x, f (s.withInputs x) = (f s).withInputs x) : Blind i := by
  intro s x t h
  obtain rfl : f s = t := Host.Outcome.next.inj ((he s).symm.trans h)
  rw [he, hf]

theorem blind_of_refused {i : Instr} {r : Refusal} (he : ∀ s, exec i s = .refused r) : Blind i :=
  fun s _ _ h => nomatch (he s).symm.trans h

/-! The operations that go by a pair or by a condition; the others commute with a new answer by unfolding. -/

@[simp] theorem State.withInputs_readPair (s : State) (x : Inputs) (p : Pair) :
    (s.withInputs x).readPair p = s.readPair p := by
  cases p <;> rfl

theorem State.withInputs_writePair (s : State) (x : Inputs) (p : Pair) (w : Word) :
    (s.withInputs x).writePair p w = (s.writePair p w).withInputs x := by
  cases p <;> rfl

theorem State.withInputs_jumpIf (s : State) (x : Inputs) (cc : Cond) (a : Word) :
    (s.withInputs x).jumpIf cc a = (s.jumpIf cc a).withInputs x :=
  (apply_ite (fun t : State => t.withInputs x) (s.flags.cond cc) (s.withPc a) (s.advance 3)).symm

theorem State.withInputs_callIf (s : State) (x : Inputs) (cc : Cond) (a : Word) :
    (s.withInputs x).callIf cc a = (s.callIf cc a).withInputs x :=
  (apply_ite (fun t : State => t.withInputs x) (s.flags.cond cc) (s.callTo a (s.nextPc 3)) (s.advance 3)).symm

theorem State.withInputs_returnIf (s : State) (x : Inputs) (cc : Cond) :
    (s.withInputs x).returnIf cc = (s.returnIf cc).withInputs x :=
  (apply_ite (fun t : State => t.withInputs x) (s.flags.cond cc) s.returnFrom (s.advance 1)).symm

/-- An instruction that ends in a pair written (LXI, INX, DCX, POP), from a state and with a value that the answer does not
change. -/
theorem blind_of_writePair {i : Instr} {p : Pair} {g : State → State} {w : State → Word} {n : Nat}
    (he : ∀ s, exec i s = .next (((g s).writePair p (w s)).advance n))
    (hg : ∀ (s : State) (x : Inputs), g (s.withInputs x) = (g s).withInputs x)
    (hw : ∀ (s : State) (x : Inputs), w (s.withInputs x) = w s) : Blind i :=
  blind_of_next he fun s x => by rw [hg, hw, State.withInputs_writePair]; rfl

/-- RIM and IN apart, no instruction sees the environment. -/
theorem exec_blind {i : Instr} (hr : i ≠ .rim) (hp : ∀ port, i ≠ .inPort port) : Blind i := by
  cases i with
  | rim => exact absurd rfl hr
  | inPort port => exact absurd rfl (hp port)
  | lxi p w => exact blind_of_writePair (g := id) (fun _ => rfl) (fun _ _ => rfl) fun _ _ => rfl
  | inx p => exact blind_of_writePair (g := id) (fun _ => rfl) (fun _ _ => rfl) fun s x => by simp
  | dcx p => exact blind_of_writePair (g := id) (fun _ => rfl) (fun _ _ => rfl) fun s x => by simp
  | popRp p => exact blind_of_writePair (g := State.drop16) (fun _ => rfl) (fun _ _ => rfl) fun _ _ => rfl
  | jnz | jz | jnc | jc | jpo | jpe | jp | jm =>
    exact blind_of_next (fun _ => rfl) fun s x => s.withInputs_jumpIf x _ _
  | cnz | cz | cnc | cc | cpo | cpe | cp | cm =>
    exact blind_of_next (fun _ => rfl) fun s x => s.withInputs_callIf x _ _
  | rnz | rz | rnc | rc | rpo | rpe | rp | rm =>
    exact blind_of_next (fun _ => rfl) fun s x => s.withInputs_returnIf x _
  | undefined08 | undefined10 | undefined18 | undefined28 | undefined38 | undefinedCB | undefinedD9 | undefinedDD
  | undefinedED | undefinedFD =>
    exact blind_of_refused fun _ => rfl
  | _ => exact blind_of_next (fun _ => rfl) fun _ _ => rfl

/-- Settles O56: every meaning but those of RIM and IN commutes with a new answer of the environment. -/
theorem onlyRimAndInSeeTheEnvironment : Obligations.OnlyRimAndInSeeTheEnvironment :=
  fun _ s x hr hp t h => exec_blind hr hp s x t h

end Sys2Proof.Machine
end

section
/-! PROOFS. The control flip-flops over a whole step, and the Halt state: settles O41 and O54. -/

namespace Sys2Proof.Machine

open Config (IntSource EiDelay)

/-! ## What a step does to the control flip-flops -/

theorem State.accepted_of_boundary_enter {s : State} {src : IntSource} (h : s.boundary = .enter src) :
    s.accepted = some src := by
  obtain ⟨hb, -⟩ | ⟨_, hb, -, ha, -⟩ | ⟨hb, -⟩ | ⟨hb, -⟩ | ⟨_, _, hb, -⟩ | ⟨_, hb, -⟩ := s.boundary_cases
  all_goals cases h.symm.trans hb
  exact ha

/-- An accepted entry acknowledges, and resets FF75 for RST 7.5: where an external source is accepted there is a byte to
take, so the third case of `State.entry_cases` does not arise. -/
theorem State.entry_ctl {s t : State} {src : IntSource} (ha : s.accepted = some src) (h : s.entry src = .next t) :
    t.ctl = (s.ctl.served src).acknowledged := by
  obtain ⟨v, -, rfl⟩ | ⟨op, v, rfl, -, -, rfl⟩ | ⟨rfl, hop, -⟩ := State.entry_cases h
  · rfl
  · rfl
  · have he : s.effective .external = true := State.accepted_effective ha
    simp [State.effective, hop] at he

theorem ctlWritten_cases {i : Instr} (h : ctlWritten i = true) : i = .ei ∨ i = .di ∨ i = .hlt ∨ i = .sim := by
  cases i with
  | ei | di | hlt | sim => simp
  | _ => cases h

/-- Only EI, DI, HLT and SIM write a control flip-flop, each in its own way. -/
theorem exec_ctl_cases {i : Instr} {s t : State} (h : exec i s = .next t) :
    (ctlWritten i = false ∧ t.ctl = s.ctl) ∨ (i = .ei ∧ t.ctl = s.afterEi) ∨
    (i = .di ∧ t.ctl = { s.ctl with ie := false }) ∨
    (i = .hlt ∧ t.ctl = { s.ctl with halted := true }) ∨ (i = .sim ∧ t.ctl = s.ctl.simmed s.regs.a) := by
  cases hw : ctlWritten i with
  | false => exact .inl ⟨rfl, (exec_framed i s t h).ctl hw⟩
  | true =>
    obtain rfl | rfl | rfl | rfl := ctlWritten_cases hw
    all_goals cases h
    · exact .inr (.inl ⟨rfl, rfl⟩)
    · exact .inr (.inr (.inl ⟨rfl, rfl⟩))
    · exact .inr (.inr (.inr (.inl ⟨rfl, rfl⟩)))
    · exact .inr (.inr (.inr (.inr ⟨rfl, rfl⟩)))

/-- What a step that answers a next state has done to the control flip-flops, by its boundary. -/
theorem step_ctl_cases {s t : State} (h : step s = .next t) :
    (s.sample.boundary.isReset = true ∧ t.ctl = Control.afterReset) ∨
    (∃ src, s.sample.boundary = .enter src ∧ t.ctl = (s.sample.ctl.served src).acknowledged) ∨
    (s.sample.boundary = .stayHalted ∧ t.ctl = s.sample.ctl) ∨
    (s.sample.boundary = .run ∧ exec s.sample.begin.instrAt s.sample.begin = .next t) := by
  obtain ⟨hb, rfl⟩ | ⟨src, hb, he⟩ | ⟨hb, rfl⟩ | ⟨hb, he⟩ | ⟨src, c, hb, rfl⟩ | ⟨c, hb, rfl⟩ := step_cases h
  · exact .inl ⟨by rw [hb]; rfl, rfl⟩
  · exact .inr (.inl ⟨src, hb, State.entry_ctl (State.accepted_of_boundary_enter hb) he⟩)
  · exact .inr (.inr (.inl ⟨hb, rfl⟩))
  · exact .inr (.inr (.inr ⟨hb, he⟩))
  · exact .inl ⟨by rw [hb]; rfl, rfl⟩
  · exact .inl ⟨by rw [hb]; rfl, rfl⟩

theorem Control.served_latch75_ff75 (c : Control) (e : Bool) (src : IntSource) :
    ((c.latch75 e).served src).acknowledged.ff75 = if src = .rst75 then false else c.ff75 || e := rfl

/-- The control flip-flops with which an instruction begins: those of `State.begin` after `State.sample`. -/
def Control.begun (c : Control) (x : Inputs) : Control :=
  { (c.latch75 x.i75Event).latch75 x.run75Event with eiShadow := false }

theorem State.sample_begin_ctl (s : State) : s.sample.begin.ctl = s.ctl.begun s.nextInputs := rfl

theorem Control.begun_ff75_set {c : Control} {x : Inputs} (h : c.ff75 = false) (h' : (c.begun x).ff75 = true) :
    x.i75Event = true ∨ x.run75Event = true := by
  simpa [Control.begun, Control.latch75, h] using h'

theorem Control.begun_ff75_of_set {c : Control} (x : Inputs) (h : c.ff75 = true) : (c.begun x).ff75 = true := by
  simp [Control.begun, Control.latch75, h]

/-- SIM only resets FF75. -/
theorem Control.ff75_of_simmed {c : Control} {a : Byte} (h : (c.simmed a).ff75 = true) : c.ff75 = true := by
  cases hb : bit a 4 <;> simp_all [Control.simmed]

/-- How the control flip-flops may go from `c` to `c'` over a step (10_state.md R32 to R35, R38, R42): `b` what happens in
it, `i` the instruction at PC, `x` the environment's answer, `d` the parameter `EI_DELAY`. -/
structure ControlChange (b : Boundary) (i : Instr) (x : Inputs) (d : EiDelay) (c c' : Control) : Prop where
  ieSet : c.ie = false → c'.ie = true → b = .run ∧ i = .ei
  ieReset : c.ie = true → c'.ie = false → b.isReset = true ∨ (∃ src, b = .enter src) ∨ (b = .run ∧ i = .di)
  masks : (c'.m75 ≠ c.m75 ∨ c'.m65 ≠ c.m65 ∨ c'.m55 ≠ c.m55) → b.isReset = true ∨ (b = .run ∧ i = .sim)
  ff75Set : c.ff75 = false → c'.ff75 = true → x.i75Event = true ∨ (b = .run ∧ x.run75Event = true)
  ff75Reset : c.ff75 = true → c'.ff75 = false → b.isReset = true ∨ b = .enter .rst75 ∨ (b = .run ∧ i = .sim)
  sod : c'.sod ≠ c.sod → b.isReset = true ∨ (b = .run ∧ i = .sim)
  haltSet : c.halted = false → c'.halted = true → b = .run ∧ i = .hlt
  haltReset : c.halted = true → c'.halted = false → b.isReset = true ∨ ∃ src, b = .enter src
  shadowSet : c.eiShadow = false → c'.eiShadow = true → b = .run ∧ i = .ei ∧ d ≠ .none
  shadowReset : c.eiShadow = true → c'.eiShadow = false →
    b.isReset = true ∨ (∃ src, b = .enter src) ∨ (b = .run ∧ (i ≠ .ei ∨ d ≠ .oneInstruction))

section
variable {b : Boundary} {i : Instr} {x : Inputs} {d : EiDelay} {c : Control}

theorem controlChange_reset (hb : b.isReset = true) : ControlChange b i x d c Control.afterReset where
  ieSet := nofun
  ieReset _ _ := .inl hb
  masks _ := .inl hb
  ff75Set := nofun
  ff75Reset _ _ := .inl hb
  sod _ := .inl hb
  haltSet := nofun
  haltReset _ _ := .inl hb
  shadowSet := nofun
  shadowReset _ _ := .inl hb

theorem controlChange_enter (src : IntSource) :
    ControlChange (.enter src) i x d c ((c.latch75 x.i75Event).served src).acknowledged where
  ieSet := nofun
  ieReset _ _ := .inr (.inl ⟨src, rfl⟩)
  masks h := absurd h (by simp [Control.acknowledged, Control.served, Control.latch75])
  ff75Set h h' := .inl (by simp_all [Control.served_latch75_ff75])
  ff75Reset h h' := .inr (.inl (by simp_all [Control.served_latch75_ff75]))
  sod h := absurd rfl h
  haltSet := nofun
  haltReset _ _ := .inr ⟨src, rfl⟩
  shadowSet := nofun
  shadowReset _ _ := .inr (.inl ⟨src, rfl⟩)

theorem controlChange_stayHalted : ControlChange b i x d c (c.latch75 x.i75Event) where
  ieSet h h' := nomatch h.symm.trans h'
  ieReset h h' := nomatch h.symm.trans h'
  masks h := absurd h (by simp [Control.latch75])
  ff75Set h h' := .inl (by simpa [Control.latch75, h] using h')
  ff75Reset h h' := absurd h' (by simp [Control.latch75, h])
  sod h := absurd rfl h
  haltSet h h' := nomatch h.symm.trans h'
  haltReset h h' := nomatch h.symm.trans h'
  shadowSet h h' := nomatch h.symm.trans h'
  shadowReset h h' := nomatch h.symm.trans h'

/-- An instruction that leaves the masks and the latches FF75, SOD as it begins, and sets or resets the others as the last
clauses allow. -/
theorem controlChange_run {ie halted shadow : Bool} (hie : ie = c.ie ∨ (i = .ei ∧ ie = true) ∨ (i = .di ∧ ie = false))
    (hh : halted = c.halted ∨ (i = .hlt ∧ halted = true))
    (hset : shadow = true → i = .ei ∧ d ≠ .none) (hreset : shadow = false → i ≠ .ei ∨ d ≠ .oneInstruction) :
    ControlChange .run i x d c { c.begun x with ie := ie, halted := halted, eiShadow := shadow } where
  ieSet h h' := ⟨rfl, by simp_all⟩
  ieReset h h' := .inr (.inr ⟨rfl, by simp_all⟩)
  masks h := absurd h (by simp [Control.begun, Control.latch75])
  ff75Set h h' := (Control.begun_ff75_set h h').imp_right fun e => ⟨rfl, e⟩
  ff75Reset h h' := nomatch (Control.begun_ff75_of_set x h).symm.trans h'
  sod h := absurd rfl h
  haltSet h h' := ⟨rfl, by simp_all⟩
  haltReset h h' := by simp_all
  shadowSet _ h' := ⟨rfl, hset h'⟩
  shadowReset _ h' := .inr (.inr ⟨rfl, hreset h'⟩)

theorem controlChange_sim (a : Byte) : ControlChange .run .sim x d c ((c.begun x).simmed a) where
  ieSet h h' := nomatch h.symm.trans h'
  ieReset h h' := nomatch h.symm.trans h'
  masks _ := .inr ⟨rfl, rfl⟩
  ff75Set h h' := (Control.begun_ff75_set h (Control.ff75_of_simmed h')).imp_right fun e => ⟨rfl, e⟩
  ff75Reset _ _ := .inr (.inr ⟨rfl, rfl⟩)
  sod _ := .inr ⟨rfl, rfl⟩
  haltSet h h' := nomatch h.symm.trans h'
  haltReset h h' := nomatch h.symm.trans h'
  shadowSet _ := nofun
  shadowReset _ _ := .inr (.inr ⟨rfl, .inl nofun⟩)

end

/-- EI under each `EI_DELAY` (60_exceptions.md R285). -/
theorem State.afterEi_eiShadow (s : State) :
    (s.afterEi.eiShadow = true → s.params.eiDelay ≠ .none) ∧
    (s.afterEi.eiShadow = false → s.params.eiDelay ≠ .oneInstruction) := by
  unfold State.afterEi
  cases s.params.eiDelay <;> simp

theorem controlChange_exec {i : Instr} {s t : State} (h : exec i s.sample.begin = .next t) :
    ControlChange .run i s.nextInputs s.params.eiDelay s.ctl t.ctl := by
  obtain ⟨hw, hc⟩ | ⟨rfl, hc⟩ | ⟨rfl, hc⟩ | ⟨rfl, hc⟩ | ⟨rfl, hc⟩ := exec_ctl_cases h
  · rw [hc, State.sample_begin_ctl]
    exact controlChange_run (.inl rfl) (.inl rfl) nofun fun _ => .inl (by rintro rfl; cases hw)
  · rw [hc]
    obtain ⟨hset, hreset⟩ := s.sample.begin.afterEi_eiShadow
    exact controlChange_run (.inr (.inl ⟨rfl, rfl⟩)) (.inl rfl) (fun e => ⟨rfl, hset e⟩) fun e => .inr (hreset e)
  · rw [hc, State.sample_begin_ctl]
    exact controlChange_run (.inr (.inr ⟨rfl, rfl⟩)) (.inl rfl) nofun fun _ => .inl nofun
  · rw [hc, State.sample_begin_ctl]
    exact controlChange_run (.inl rfl) (.inr ⟨rfl, rfl⟩) nofun fun _ => .inl nofun
  · rw [hc, State.sample_begin_ctl]
    exact controlChange_sim _

theorem step_controlChange {s t : State} (h : step s = .next t) :
    ControlChange s.sample.boundary s.sample.begin.instrAt s.nextInputs s.params.eiDelay s.ctl t.ctl := by
  obtain ⟨hb, hc⟩ | ⟨src, hb, hc⟩ | ⟨-, hc⟩ | ⟨hb, he⟩ := step_ctl_cases h
  · rw [hc]
    exact controlChange_reset hb
  · rw [hc, hb]
    exact controlChange_enter src
  · rw [hc]
    exact controlChange_stayHalted
  · rw [hb]
    exact controlChange_exec he

/-- Settles O54: the changes of a step, by its boundary and by the four instructions that write a control flip-flop. -/
theorem controlStateChangesOnlyAsDescribed : Obligations.ControlStateChangesOnlyAsDescribed := by
  rintro s t h b i rfl rfl
  obtain ⟨hieSet, hieReset, hmasks, hffSet, hffReset, hsod, hhaltSet, hhaltReset, hshSet, hshReset⟩ :=
    step_controlChange h
  exact ⟨hieSet, hieReset, hmasks, hffSet, hffReset, hsod, hhaltSet, hhaltReset, hshSet, hshReset⟩

/-! ## The Halt state (10_state.md R38) -/

/-- A halted processor fetches nothing. -/
theorem boundary_of_halted {s : State} (h : s.ctl.halted = true) :
    s.boundary ≠ .run ∧ ∀ c, s.boundary ≠ .resetInRun c := by
  obtain ⟨hb, -⟩ | ⟨_, hb, -⟩ | ⟨hb, -⟩ | ⟨-, -, -, hh, -⟩ | ⟨_, _, hb, -⟩ | ⟨_, -, -, -, hh, -⟩ := s.boundary_cases
  · simp [hb]
  · simp [hb]
  · simp [hb]
  · cases h.symm.trans hh
  · simp [hb]
  · cases h.symm.trans hh

theorem State.accepted_none_of_not_effective {s : State} (h : ∀ src, s.effective src = false) : s.accepted = none :=
  State.accepted_none.2 fun src _ => by simp [State.candidate, h]

/-- A halted processor that nothing wakes goes on to the next boundary (D19). -/
theorem step_of_halted_quiet {s : State} (h : s.ctl.halted = true) (hr : s.nextInputs.reset = false)
    (hc : s.nextInputs.cut = none) (he : ∀ src, s.sample.effective src = false) : step s = .next s.sample := by
  apply step_stayHalted
  have hh : s.sample.ctl.halted = true := h
  rw [State.boundary_idle hr (State.accepted_none_of_not_effective he), hh, State.sample_inputs, hc]
  rfl

/-- A step ends the Halt state exactly by a reset or by an entry. -/
theorem step_halted_iff {s t : State} (hs : s.ctl.halted = true) (h : step s = .next t) :
    t.ctl.halted = false ↔ s.sample.boundary.isReset = true ∨ ∃ src, s.sample.boundary = .enter src := by
  obtain ⟨hb, hc⟩ | ⟨src, hb, hc⟩ | ⟨hb, hc⟩ | ⟨hb, -⟩ := step_ctl_cases h
  · simp [hb, hc, Control.afterReset]
  · simp [hb, hc, Control.acknowledged]
  · have hh : t.ctl.halted = true := hc ▸ hs
    simp [hb, hh, Boundary.isReset]
  · exact absurd hb (boundary_of_halted (s := s.sample) hs).1

/-- Settles O41: HLT sets the flip-flop, a halted processor fetches nothing, and only a reset or an entry wakes it. -/
theorem haltedUntilInterruptOrReset : Obligations.HaltedUntilInterruptOrReset := by
  refine ⟨fun s => ⟨_, rfl, rfl⟩, fun s hs => boundary_of_halted hs, fun s hs hr hc he => ?_, fun s t => step_halted_iff⟩
  exact ⟨_, step_of_halted_quiet hs hr hc he, rfl, rfl, rfl, rfl, rfl, rfl, rfl, rfl, rfl, rfl⟩

end Sys2Proof.Machine
end

section
/-! PROOFS. SIM, and the state after reset: settles O39, O48 and O50. -/

namespace Sys2Proof.Machine

/-! ## SIM (44_stack_io_control.md R264) -/

/-- D3 (MSE) lets the masks take D2, D1, D0. -/
theorem Control.simmed_masks (c : Control) (a : Byte) :
    (a.getLsbD 3 = true → (c.simmed a).m75 = a.getLsbD 2 ∧ (c.simmed a).m65 = a.getLsbD 1 ∧
      (c.simmed a).m55 = a.getLsbD 0) ∧
    (a.getLsbD 3 = false → (c.simmed a).m75 = c.m75 ∧ (c.simmed a).m65 = c.m65 ∧ (c.simmed a).m55 = c.m55) := by
  constructor <;> intro h <;> simp only [Control.simmed, bit_eq, h, if_true, Bool.false_eq_true, if_false, and_self]

/-- D4 (R7.5) resets FF75. -/
theorem Control.simmed_ff75 (c : Control) (a : Byte) :
    (a.getLsbD 4 = true → (c.simmed a).ff75 = false) ∧ (a.getLsbD 4 = false → (c.simmed a).ff75 = c.ff75) := by
  constructor <;> intro h <;> simp only [Control.simmed, bit_eq, h, if_true, Bool.false_eq_true, if_false]

/-- D6 (SDE) lets SOD take D7, and records it. -/
theorem Control.simmed_sod (c : Control) (l : List Bool) (a : Byte) :
    (a.getLsbD 6 = true → (c.simmed a).sod = a.getLsbD 7 ∧ sodAfter l a = l ++ [a.getLsbD 7]) ∧
    (a.getLsbD 6 = false → (c.simmed a).sod = c.sod ∧ sodAfter l a = l) := by
  constructor <;> intro h <;>
    simp only [Control.simmed, sodAfter, bit_eq, h, if_true, Bool.false_eq_true, if_false, and_self]

/-- Settles O39: the three enable bits D3, D4, D6 decide each what SIM writes; the rest is as before. -/
theorem simResults : Obligations.SimResults := by
  intro s
  obtain ⟨hmOn, hmOff⟩ := s.ctl.simmed_masks s.regs.a
  obtain ⟨hfOn, hfOff⟩ := s.ctl.simmed_ff75 s.regs.a
  obtain ⟨hsOn, hsOff⟩ := s.ctl.simmed_sod s.sodTrace s.regs.a
  exact ⟨_, rfl, hmOn, hmOff, hfOn, hfOff, hsOn, hsOff, rfl, rfl, rfl, rfl, rfl, rfl, rfl, fun _ _ => rfl,
    fun _ _ => rfl, rfl, rfl, rfl, rfl⟩

/-! ## The state after reset (10_state.md R40, 70_reset_and_hazards.md R310) -/

/-- The default map has no range, so every address is RAM. -/
theorem State.reset_regionAt (a : Word) : State.reset.regionAt a = .ram := rfl

/-- Settles O48: the fields of `State.reset` as they stand. -/
theorem resetStateValues : Obligations.ResetStateValues :=
  ⟨rfl, rfl, rfl, rfl, rfl, rfl, rfl, rfl, rfl, rfl, rfl, rfl, rfl, rfl, rfl, State.reset_regionAt⟩

/-- The default parameters have the form 00_scope.md R6 gives them. -/
theorem params_spec_wf : Config.Params.spec.wf := by decide

/-- Settles O50: memory lists nothing, EI_shadow is 0, and the parameters are the default ones. -/
theorem invariantHoldsAtReset : Obligations.InvariantHoldsAtReset :=
  ⟨State.reset_mem_wf, nofun, params_spec_wf⟩

end Sys2Proof.Machine
end

section
/-! PROOFS. Memory and the stack primitives: settles O57, O58 and O59. -/

namespace Sys2Proof.Machine

/-- A 16-bit value stored low-order byte first is read back (20_memory.md R52). -/
theorem State.readWord_writeByte_low_high {s : State} {a : Word} (h : s.regionAt a = .ram)
    (h1 : s.regionAt (a + 1) = .ram) (w : Word) :
    ((s.writeByte a (low w)).writeByte (a + 1) (high w)).readWord a = w := by
  rw [State.readWord, State.readByte_writeByte_same (by simpa using h1),
    State.readByte_writeByte_other _ _ (add_one_ne_self a).symm, State.readByte_writeByte_same h, join_high_low]

/-- Settles O59: the laws of one byte, and a word of two. -/
theorem memoryReadsWhatWasWritten : Obligations.MemoryReadsWhatWasWritten :=
  fun s _ v => ⟨fun h => State.readByte_writeByte_same h v, fun h => State.writeByte_not_ram h v,
    fun _ hb => State.readByte_writeByte_other s v hb, fun w h h1 => State.readWord_writeByte_low_high h h1 w⟩

/-- Settles O57: the two bytes and SP as `Pushed` has them, every other byte as before, and no other field. -/
theorem pushSixteenStoresHighThenLow : Obligations.PushSixteenStoresHighThenLow :=
  fun _ _ => ⟨pushed_of (fun _ => rfl) rfl, keepsBytes_of_push16 fun _ => rfl, rfl⟩

/-- Settles O58: `Pop16` joins the byte at SP + 1 to the one at SP. -/
theorem popSixteenReadsLowThenHigh : Obligations.PopSixteenReadsLowThenHigh :=
  fun s => ⟨join_toNat (s.readByte (s.sp + 1)) (s.readByte s.sp), rfl⟩

end Sys2Proof.Machine
end

section
/-! PROOFS. The meanings against the table of accesses (20_memory.md R57): what each instruction writes and outputs, what it
reads, and what it inputs, one case per instruction. Settles O51. -/

namespace Sys2Proof.Machine

/-! ## Writes and outputs -/

/-- The operand bytes are only read. -/
theorem State.mem_operandAccesses {s : State} {i : Instr} {x : Access} (h : x ∈ s.operandAccesses i) :
    ∃ a, x = .read a := by
  unfold State.operandAccesses at h
  split at h
  · exact ⟨_, List.mem_singleton.1 h⟩
  · split at h
    · obtain rfl | rfl : x = .read (s.pc + 1) ∨ x = .read (s.pc + 2) := by simpa using h
      · exact ⟨_, rfl⟩
      · exact ⟨_, rfl⟩
    · exact ⟨_, List.mem_singleton.1 h⟩
  · cases h

/-- Reads leave nothing behind. -/
theorem State.applyAccesses_reads {s : State} {l : List Access} (h : ∀ x ∈ l, ∃ a, x = .read a) :
    s.applyAccesses l = s := by
  induction l with
  | nil => rfl
  | cons x l ih =>
    obtain ⟨a, rfl⟩ := h x List.mem_cons_self
    exact ih fun y hy => h y (List.mem_cons_of_mem _ hy)

/-- The fetch of an instruction's own bytes leaves nothing behind. -/
theorem State.applyAccesses_accesses (s : State) (i : Instr) :
    s.applyAccesses (s.accesses i) = s.applyAccesses (s.dataAccesses i) := by
  change (s.applyAccess (.read s.pc)).applyAccesses (s.operandAccesses i ++ s.dataAccesses i) = _
  rw [State.applyAccesses, List.foldl_append]
  exact congrArg (fun u : State => u.applyAccesses (s.dataAccesses i))
    (State.applyAccesses_reads fun _ => State.mem_operandAccesses)

/-- `t` has the memory and the output events that the table's accesses leave of `s`. -/
def Performs (i : Instr) (s t : State) : Prop :=
  t.mem = (s.applyAccesses (s.dataAccesses i)).mem ∧ t.outTrace = (s.applyAccesses (s.dataAccesses i)).outTrace

/-- The instruction writes and outputs as its row of the table says. -/
def WritesOnBus (i : Instr) : Prop := ∀ s t, exec i s = .next t → Performs i s t

theorem writesOnBus_of_next {i : Instr} {f : State → State} (he : ∀ s, exec i s = .next (f s))
    (hf : ∀ s, Performs i s (f s)) : WritesOnBus i := by
  intro s t h
  obtain rfl : f s = t := Host.Outcome.next.inj ((he s).symm.trans h)
  exact hf s

theorem writesOnBus_of_refused {i : Instr} {r : Refusal} (he : ∀ s, exec i s = .refused r) : WritesOnBus i :=
  fun s _ h => nomatch (he s).symm.trans h

/-- A pair is no memory: LXI, INX, DCX, POP. -/
theorem writesOnBus_of_writePair {i : Instr} {p : Pair} {g : State → State} {w : State → Word} {n : Nat}
    (he : ∀ s, exec i s = .next (((g s).writePair p (w s)).advance n)) (hg : ∀ s, Performs i s (g s)) :
    WritesOnBus i :=
  writesOnBus_of_next he fun s => by simpa [Performs] using hg s

/-- INR M and DCR M write the counted byte. -/
theorem writesOnBus_of_countM {i : Instr} {r : State → AluResult} {v : State → Byte}
    (he : ∀ s, exec i s = .next (((s.writeM (r s).value).withFlags (r s).flags).advance 1))
    (hd : ∀ s : State, s.dataAccesses i = [.read s.hl, .write s.hl (v s)]) (hr : ∀ s, (r s).value = v s) :
    WritesOnBus i :=
  writesOnBus_of_next he fun s => by
    rw [Performs, hd, hr]
    exact ⟨rfl, rfl⟩

theorem writesOnBus_of_jumpIf {i : Instr} {cc : Cond} {a : Word} (he : ∀ s, exec i s = .next (s.jumpIf cc a))
    (hd : ∀ s : State, s.dataAccesses i = []) : WritesOnBus i :=
  writesOnBus_of_next he fun s => by
    rw [Performs, hd, State.jumpIf]
    split <;> exact ⟨rfl, rfl⟩

theorem writesOnBus_of_callIf {i : Instr} {cc : Cond} {a : Word} (he : ∀ s, exec i s = .next (s.callIf cc a))
    (hd : ∀ s : State, s.dataAccesses i = if s.flags.cond cc then s.pushAccesses (s.nextPc 3) else []) :
    WritesOnBus i :=
  writesOnBus_of_next he fun s => by
    rw [Performs, hd, State.callIf]
    split <;> exact ⟨rfl, rfl⟩

theorem writesOnBus_of_returnIf {i : Instr} {cc : Cond} (he : ∀ s, exec i s = .next (s.returnIf cc))
    (hd : ∀ s : State, s.dataAccesses i = if s.flags.cond cc then s.popAccesses else []) : WritesOnBus i :=
  writesOnBus_of_next he fun s => by
    rw [Performs, hd, State.returnIf]
    split <;> exact ⟨rfl, rfl⟩

/-- Every instruction writes and outputs as its row of the table says. Where the row is a fixed list, the meaning
performs the writes of the list in their order, and both sides compute to the same memory and outputs. -/
theorem exec_writesOnBus (i : Instr) : WritesOnBus i := by
  cases i with
  | lxi | inx | dcx => exact writesOnBus_of_writePair (g := id) (fun _ => rfl) fun _ => ⟨rfl, rfl⟩
  | popRp => exact writesOnBus_of_writePair (g := State.drop16) (fun _ => rfl) fun _ => ⟨rfl, rfl⟩
  | inrM => exact writesOnBus_of_countM (fun _ => rfl) (fun _ => rfl) fun s => inc8_value s.flags s.readM
  | dcrM => exact writesOnBus_of_countM (fun _ => rfl) (fun _ => rfl) fun s => dec8_value s.flags s.readM
  | jnz | jz | jnc | jc | jpo | jpe | jp | jm => exact writesOnBus_of_jumpIf (fun _ => rfl) fun _ => rfl
  | cnz | cz | cnc | cc | cpo | cpe | cp | cm => exact writesOnBus_of_callIf (fun _ => rfl) fun _ => rfl
  | rnz | rz | rnc | rc | rpo | rpe | rp | rm => exact writesOnBus_of_returnIf (fun _ => rfl) fun _ => rfl
  | undefined08 | undefined10 | undefined18 | undefined28 | undefined38 | undefinedCB | undefinedD9 | undefinedDD
  | undefinedED | undefinedFD =>
    exact writesOnBus_of_refused fun _ => rfl
  | _ => exact writesOnBus_of_next (fun _ => rfl) fun _ => ⟨rfl, rfl⟩

/-! ## Reads -/

/-- The memory `m` has in `s` the same byte at every address that the list reads. -/
def AgreesOnReads (s : State) (m : Memory) (l : List Access) : Prop :=
  ∀ a, .read a ∈ l → (s.withMem m).readByte a = s.readByte a

theorem AgreesOnReads.mono {s : State} {m : Memory} {k l : List Access} (h : AgreesOnReads s m l) (hk : k ⊆ l) :
    AgreesOnReads s m k :=
  fun a ha => h a (hk ha)

/-- `Pop16` reads the bytes at SP and SP + 1 alone (R72). -/
theorem AgreesOnReads.top16_eq {s : State} {m : Memory} (h : AgreesOnReads s m s.popAccesses) :
    (s.withMem m).top16 = s.top16 :=
  congrArg₂ join (h (s.sp + 1) (by simp [State.popAccesses])) (h s.sp (by simp [State.popAccesses]))

/-- With any memory that has the same bytes at the addresses the table reads, the instruction does the same but for
memory. -/
def ReadsOnBus (i : Instr) : Prop :=
  ∀ s t m, exec i s = .next t → AgreesOnReads s m (s.dataAccesses i) →
    ∃ u, exec i (s.withMem m) = .next u ∧ u.withMem t.mem = t

theorem readsOnBus_of_next {i : Instr} {f : State → State} (he : ∀ s, exec i s = .next (f s))
    (hf : ∀ s m, AgreesOnReads s m (s.dataAccesses i) → (f (s.withMem m)).withMem (f s).mem = f s) :
    ReadsOnBus i := by
  intro s t m h hm
  obtain rfl : f s = t := Host.Outcome.next.inj ((he s).symm.trans h)
  exact ⟨_, he _, hf s m hm⟩

theorem readsOnBus_of_refused {i : Instr} {r : Refusal} (he : ∀ s, exec i s = .refused r) : ReadsOnBus i :=
  fun s _ _ h => nomatch (he s).symm.trans h

@[simp] theorem State.withMem_readPair (s : State) (m : Memory) (p : Pair) :
    (s.withMem m).readPair p = s.readPair p := by
  cases p <;> rfl

theorem State.withMem_writePair (s : State) (m : Memory) (p : Pair) (w : Word) :
    (s.withMem m).writePair p w = (s.writePair p w).withMem m := by
  cases p <;> rfl

/-- LDA, LDAX: the accumulator takes the byte at the one address read. -/
theorem readsOnBus_of_loadA {i : Instr} {a : State → Word} {n : Nat}
    (he : ∀ s, exec i s = .next ((s.writeReg .a (s.readByte (a s))).advance n))
    (hd : ∀ s : State, s.dataAccesses i = [.read (a s)]) (ha : ∀ s m, a (s.withMem m) = a s) : ReadsOnBus i :=
  readsOnBus_of_next he fun s m h => by
    rw [hd] at h
    rw [ha, h (a s) List.mem_cons_self]
    rfl

/-- An instruction whose result depends on memory by the operand `M` alone. -/
theorem readsOnBus_of_readM {i : Instr} {f : State → State} (he : ∀ s, exec i s = .next (f s))
    (hd : ∀ s : State, .read s.hl ∈ s.dataAccesses i)
    (hf : ∀ s m, (s.withMem m).readM = s.readM → (f (s.withMem m)).withMem (f s).mem = f s) : ReadsOnBus i :=
  readsOnBus_of_next he fun s m h => hf s m (h s.hl (hd s))

/-- LXI, INX, DCX, POP: a pair takes a value that the other memory does not change. -/
theorem readsOnBus_of_writePair {i : Instr} {p : Pair} {g : State → State} {w : State → Word} {n : Nat}
    (he : ∀ s, exec i s = .next (((g s).writePair p (w s)).advance n))
    (hg : ∀ s m, g (s.withMem m) = (g s).withMem m)
    (hw : ∀ s m, AgreesOnReads s m (s.dataAccesses i) → w (s.withMem m) = w s) : ReadsOnBus i :=
  readsOnBus_of_next he fun s m h => by
    rw [hg, hw s m h, State.withMem_writePair]
    rfl

theorem readsOnBus_of_jumpIf {i : Instr} {cc : Cond} {a : Word} (he : ∀ s, exec i s = .next (s.jumpIf cc a)) :
    ReadsOnBus i :=
  readsOnBus_of_next he fun s m _ => by
    unfold State.jumpIf
    rw [State.withMem_flags]
    split <;> rfl

theorem readsOnBus_of_callIf {i : Instr} {cc : Cond} {a : Word} (he : ∀ s, exec i s = .next (s.callIf cc a)) :
    ReadsOnBus i :=
  readsOnBus_of_next he fun s m _ => by
    unfold State.callIf
    rw [State.withMem_flags]
    split <;> rfl

theorem State.returnFrom_withMem {s : State} {m : Memory} (h : AgreesOnReads s m s.popAccesses) :
    (s.withMem m).returnFrom = s.returnFrom.withMem m := by
  rw [State.returnFrom, h.top16_eq]
  rfl

theorem readsOnBus_of_returnIf {i : Instr} {cc : Cond} (he : ∀ s, exec i s = .next (s.returnIf cc))
    (hd : ∀ s : State, s.dataAccesses i = if s.flags.cond cc then s.popAccesses else []) : ReadsOnBus i :=
  readsOnBus_of_next he fun s m h => by
    rw [hd] at h
    unfold State.returnIf
    rw [State.withMem_flags]
    split
    next hc =>
      rw [if_pos hc] at h
      rw [State.returnFrom_withMem h]
      rfl
    next => rfl

theorem readsOnBus_lhld (a : Word) : ReadsOnBus (.lhld a) :=
  readsOnBus_of_next (fun _ => rfl) fun s m h => by
    have hl : (s.withMem m).readByte a = s.readByte a := h a (by simp [State.dataAccesses])
    have hh : (s.withMem m).readByte (a + 1) = s.readByte (a + 1) := h (a + 1) (by simp [State.dataAccesses])
    rw [hl, hh]
    rfl

theorem readsOnBus_popPsw : ReadsOnBus .popPsw :=
  readsOnBus_of_next (fun _ => rfl) fun _ _ h => by
    rw [AgreesOnReads.top16_eq h]
    rfl

/-- XTHL reads the word at SP before it writes there (44_stack_io_control.md R245). -/
theorem readsOnBus_xthl : ReadsOnBus .xthl :=
  readsOnBus_of_next (fun _ => rfl) fun s _ h => by
    have hpop : s.popAccesses ⊆ s.dataAccesses .xthl := List.subset_append_left s.popAccesses _
    rw [(h.mono hpop).top16_eq]
    rfl

/-- No instruction reads a byte that its row of the table does not list. -/
theorem exec_readsOnBus (i : Instr) : ReadsOnBus i := by
  cases i with
  | lda => exact readsOnBus_of_loadA (fun _ => rfl) (fun _ => rfl) fun _ _ => rfl
  | ldax p => exact readsOnBus_of_loadA (fun _ => rfl) (fun _ => rfl) fun s m => s.withMem_readPair m p
  | lxi => exact readsOnBus_of_writePair (g := id) (fun _ => rfl) (fun _ _ => rfl) fun _ _ _ => rfl
  | inx | dcx => exact readsOnBus_of_writePair (g := id) (fun _ => rfl) (fun _ _ => rfl) fun s m _ => by simp
  | popRp => exact readsOnBus_of_writePair (g := State.drop16) (fun _ => rfl) (fun _ _ => rfl) fun _ _ h => h.top16_eq
  | movRM | addM | adcM | subM | sbbM | anaM | xraM | oraM | cmpM | inrM | dcrM =>
    exact readsOnBus_of_readM (fun _ => rfl) (fun _ => List.mem_cons_self) fun _ _ hv => by rw [hv]; rfl
  | jnz | jz | jnc | jc | jpo | jpe | jp | jm => exact readsOnBus_of_jumpIf fun _ => rfl
  | cnz | cz | cnc | cc | cpo | cpe | cp | cm => exact readsOnBus_of_callIf fun _ => rfl
  | ret => exact readsOnBus_of_next (fun _ => rfl) fun s m h => by rw [State.returnFrom_withMem h]; rfl
  | rnz | rz | rnc | rc | rpo | rpe | rp | rm => exact readsOnBus_of_returnIf (fun _ => rfl) fun _ => rfl
  | lhld a => exact readsOnBus_lhld a
  | popPsw => exact readsOnBus_popPsw
  | xthl => exact readsOnBus_xthl
  | undefined08 | undefined10 | undefined18 | undefined28 | undefined38 | undefinedCB | undefinedD9 | undefinedDD
  | undefinedED | undefinedFD =>
    exact readsOnBus_of_refused fun _ => rfl
  | _ => exact readsOnBus_of_next (fun _ => rfl) fun _ _ _ => rfl

/-! ## Inputs -/

/-- IN and RIM: the accumulator takes a byte that the new answer presents as the old one did. -/
theorem exec_withInputs_of_loadA {i : Instr} {v : State → Byte} {n : Nat} {s t : State} {x : Inputs}
    (he : ∀ s, exec i s = .next ((s.writeReg .a (v s)).advance n)) (hv : v (s.withInputs x) = v s)
    (h : exec i s = .next t) : exec i (s.withInputs x) = .next (t.withInputs x) := by
  obtain rfl : (s.writeReg .a (v s)).advance n = t := Host.Outcome.next.inj ((he s).symm.trans h)
  rw [he, hv]
  rfl

/-- A bit of the byte that RIM loads depends on the answer by SID and the two request lines alone. -/
theorem State.withInputs_rimBit {s : State} {x : Inputs} (hs : x.sid = s.inputs.sid) (h6 : x.run65 = s.inputs.run65)
    (h5 : x.run55 = s.inputs.run55) (b : Config.RimBit) : (s.withInputs x).rimBit b = s.rimBit b := by
  cases b with
  | sid => exact hs
  | i65 => exact h6
  | i55 => exact h5
  | i75 | ie | m75 | m65 | m55 => rfl

/-- RIM sees three lines alone (44_stack_io_control.md R263). -/
theorem State.withInputs_rimByte {s : State} {x : Inputs} (hs : x.sid = s.inputs.sid) (h6 : x.run65 = s.inputs.run65)
    (h5 : x.run55 = s.inputs.run55) : (s.withInputs x).rimByte = s.rimByte := by
  simp only [State.rimByte, State.withInputs_rimBit hs h6 h5, State.withInputs_params]

/-- No instruction sees more of the environment than the ports that its row of the table inputs and, for RIM, its three
lines. -/
theorem exec_withInputs {i : Instr} {s t : State} {x : Inputs} (h : exec i s = .next t)
    (hp : ∀ port, .input port ∈ s.dataAccesses i → (s.withInputs x).portIn port = s.portIn port)
    (hr : i = .rim → x.sid = s.inputs.sid ∧ x.run65 = s.inputs.run65 ∧ x.run55 = s.inputs.run55) :
    exec i (s.withInputs x) = .next (t.withInputs x) := by
  by_cases hrim : i = .rim
  · subst hrim
    obtain ⟨hs, h6, h5⟩ := hr rfl
    exact exec_withInputs_of_loadA (fun _ => rfl) (State.withInputs_rimByte hs h6 h5) h
  by_cases hin : ∃ port, i = .inPort port
  · obtain ⟨port, rfl⟩ := hin
    exact exec_withInputs_of_loadA (v := fun s => s.portIn port) (fun _ => rfl) (hp port List.mem_cons_self) h
  exact exec_blind hrim (fun port e => hin ⟨port, e⟩) s x t h

/-! ## The table -/

theorem State.dataAccesses_subset_accesses (s : State) (i : Instr) : s.dataAccesses i ⊆ s.accesses i :=
  List.subset_cons_of_subset _ (List.subset_append_right _ _)

/-- Settles O51: each meaning writes, outputs, reads and inputs as its row of the table says. -/
theorem meaningsFollowTheBusTable : Obligations.MeaningsFollowTheBusTable := by
  intro i s t h
  have hsub := s.dataAccesses_subset_accesses i
  obtain ⟨hmem, hout⟩ := exec_writesOnBus i s t h
  obtain ⟨-, -, hdraws, hparams⟩ := (exec_framed i s t h).world
  rw [State.applyAccesses_accesses]
  refine ⟨fun a => State.readByte_congr hmem ?_ ?_ a, hout, fun m hm => ?_, fun x hp hr => ?_⟩
  · rw [hparams, State.applyAccesses_eq]
    rfl
  · rw [hdraws, State.applyAccesses_eq]
    rfl
  · exact exec_readsOnBus i s t m h (AgreesOnReads.mono hm hsub)
  · exact exec_withInputs h (fun port hport => hp port (hsub hport)) hr

end Sys2Proof.Machine
end

section
/-! PROOFS. The decoder and the encoder: which operand bytes make which instruction of a first byte, the round trip both
ways, and the length. Settles O1, O2 and O3. -/

namespace Sys2Proof

open Machine

/-! ## What a form reads -/

/-- The operand bytes `ops` after a first byte of this form make the instruction `i` (30_encoding.md R80, R87, R88). -/
inductive Form.Reads : Form → List Byte → Instr → Prop
  | one {i : Instr} : Form.Reads (.one i) [] i
  | two {f : Byte → Instr} {v : Byte} : Form.Reads (.two f) [v] (f v)
  | three {f : Word → Instr} {w : Word} : Form.Reads (.three f) (operandBytes w) (f w)

theorem Form.Reads.length_ops {form : Form} {ops : List Byte} {i : Instr} (h : form.Reads ops i) :
    ops.length + 1 = form.length := by
  cases h <;> rfl

/-- Two bytes are enough for the operand of every form. -/
theorem Form.reads_instr (form : Form) (b2 b3 : Byte) : ∃ ops, form.Reads ops (form.instr b2 b3) := by
  cases form with
  | one i => exact ⟨_, .one⟩
  | two f => exact ⟨_, .two⟩
  | three f => exact ⟨_, .three⟩

/-- If two bytes begin with the operand bytes of `i`, they make `i`. -/
theorem Form.Reads.instr_eq {form : Form} {ops rest : List Byte} {i : Instr} {b2 b3 : Byte} (h : form.Reads ops i)
    (hops : [b2, b3] = ops ++ rest) : form.instr b2 b3 = i := by
  cases h with
  | one => rfl
  | two =>
    obtain ⟨rfl, -⟩ := List.cons.inj hops
    rfl
  | three =>
    obtain ⟨rfl, htail⟩ := List.cons.inj hops
    obtain ⟨rfl, -⟩ := List.cons.inj htail
    exact congrArg _ (join_high_low _)

theorem operandBytes_join (b2 b3 : Byte) : operandBytes (join b3 b2) = [b2, b3] := by
  rw [operandBytes, low_join, high_join]

theorem decode_of_reads {op : Byte} {ops : List Byte} {i : Instr} (h : (formOf op).Reads ops i) (rest : List Byte) :
    decode (op :: (ops ++ rest)) = .instr i rest := by
  generalize hf : formOf op = form at h
  cases h with
  | one | two => simp only [decode, hf, List.nil_append, List.cons_append]
  | three => simp only [decode, hf, operandBytes, List.nil_append, List.cons_append, join_high_low]

theorem reads_of_decode {bs rest : List Byte} {i : Instr} (h : decode bs = .instr i rest) :
    ∃ op ops, bs = op :: (ops ++ rest) ∧ (formOf op).Reads ops i := by
  unfold decode at h
  split at h
  · cases h
  next op tail =>
    refine ⟨op, ?_⟩
    split at h <;> cases h
    next hf => exact ⟨[], rfl, hf ▸ .one⟩
    next f b2 hf => exact ⟨[b2], rfl, hf ▸ .two⟩
    next f b2 b3 hf => exact ⟨operandBytes (join b3 b2), by rw [operandBytes_join]; rfl, hf ▸ .three⟩

/-- Fetching two bytes after the first, used or not, gives the instruction that the decoder reads. -/
theorem instrOf_of_decode {op b2 b3 : Byte} {rest : List Byte} {i : Instr}
    (h : decode [op, b2, b3] = .instr i rest) : instrOf op b2 b3 = i := by
  obtain ⟨_, ops, hbs, hr⟩ := reads_of_decode h
  obtain ⟨rfl, hops⟩ := List.cons.inj hbs
  exact hr.instr_eq hops

/-! ## From the instruction to its first byte -/

/-- The first byte of a well-formed instruction's encoding has the form that reads the rest of it as this instruction
(30 R82 to R89). -/
theorem Instr.WellFormed.reads_encode {i : Instr} (h : i.WellFormed) :
    ∃ op ops, encode i = op :: ops ∧ (formOf op).Reads ops i := by
  cases i with
  | movRR rd rs => cases rd <;> cases rs <;> exact ⟨_, _, rfl, .one⟩
  | movRM r | movMR r | addR r | adcR r | subR r | sbbR r | anaR r | xraR r | oraR r | cmpR r | inrR r | dcrR r =>
    cases r <;> exact ⟨_, _, rfl, .one⟩
  | mviR r v => cases r <;> exact ⟨_, _, rfl, .two⟩
  | lxi p w => cases p <;> exact ⟨_, _, rfl, .three⟩
  | inx p | dcx p | dad p => cases p <;> exact ⟨_, _, rfl, .one⟩
  | ldax p | stax p =>
    cases p with
    | bc | de => exact ⟨_, _, rfl, .one⟩
    | hl | sp => cases h
  | pushRp p | popRp p =>
    cases p with
    | bc | de | hl => exact ⟨_, _, rfl, .one⟩
    | sp => cases h
  | rst n =>
    have hn : n < 8 := of_decide_eq_true h
    interval_cases n <;> exact ⟨_, _, rfl, .one⟩
  | mviM | adi | aci | sui | sbi | ani | xri | ori | cpi | inPort | outPort => exact ⟨_, _, rfl, .two⟩
  | lda | sta | lhld | shld | jmp | jnz | jz | jnc | jc | jpo | jpe | jp | jm
  | call | cnz | cz | cnc | cc | cpo | cpe | cp | cm => exact ⟨_, _, rfl, .three⟩
  | _ => exact ⟨_, _, rfl, .one⟩

/-- Settles O1: the form of the first byte reads the operand bytes back, and the decoder goes by the form. -/
theorem decodeOfEncodeIsTheInstruction : Obligations.DecodeOfEncodeIsTheInstruction := by
  intro i rest h
  obtain ⟨op, ops, he, hr⟩ := h.reads_encode
  rw [he]
  exact decode_of_reads hr rest

/-! ## From the first byte to its instructions -/

/-- Every instruction that a first byte `op` of this form makes is well-formed, and its encoding is `op` with the operand
bytes. -/
def Form.EncodesAs (op : Byte) (form : Form) : Prop :=
  ∀ ops i, form.Reads ops i → i.WellFormed ∧ encode i = op :: ops

theorem encodesAs_one {op : Byte} {i : Instr} (hw : i.WellFormed) (he : encode i = [op]) :
    (Form.one i).EncodesAs op := by
  rintro _ _ ⟨⟩
  exact ⟨hw, he⟩

theorem encodesAs_two {op : Byte} {f : Byte → Instr} (hw : ∀ v, (f v).WellFormed) (he : ∀ v, encode (f v) = [op, v]) :
    (Form.two f).EncodesAs op := by
  rintro _ _ ⟨⟩
  exact ⟨hw _, he _⟩

theorem encodesAs_three {op : Byte} {f : Word → Instr} (hw : ∀ w, (f w).WellFormed)
    (he : ∀ w, encode (f w) = op :: operandBytes w) : (Form.three f).EncodesAs op := by
  rintro _ _ ⟨⟩
  exact ⟨hw _, he _⟩

/-- A register field holds the code of the register it names, or 110 (R83). -/
theorem regOfCode_cases (y : Fin 8) :
    (∃ r, regOfCode y = some r ∧ y.val = r.code) ∨ (regOfCode y = none ∧ y.val = 6) := by
  revert y
  decide

theorem regOrM_encodesAs {op : Nat → Byte} {onReg : Reg → Form} {onM : Form}
    (hr : ∀ r, (onReg r).EncodesAs (op r.code)) (hm : onM.EncodesAs (op 6)) (y : Fin 8) :
    (regOrM y onReg onM).EncodesAs (op y.val) := by
  unfold regOrM
  obtain ⟨r, he, hy⟩ | ⟨he, hy⟩ := regOfCode_cases y <;> rw [he, hy]
  · exact hr r
  · exact hm

/-- The field op[5:3] is the code of its pair with the bit op[3] after it (R84). -/
theorem two_mul_pairCode (y : Fin 8) : 2 * (pairOfCode y).code + y.val % 2 = y.val := by
  revert y
  decide

/-- The columns of group 00 whose bit op[3] chooses between two instructions on a pair. -/
theorem pairColumn_encodesAs {op : Nat → Byte} {even odd : Pair → Form}
    (he : ∀ p, (even p).EncodesAs (op (2 * p.code))) (ho : ∀ p, (odd p).EncodesAs (op (2 * p.code + 1))) (y : Fin 8) :
    (if y.val % 2 = 0 then even (pairOfCode y) else odd (pairOfCode y)).EncodesAs (op y.val) := by
  have hy := two_mul_pairCode y
  split
  next h =>
    rw [← hy, h]
    exact he _
  next h =>
    rw [← hy, Nat.mod_two_ne_zero.1 h]
    exact ho _

theorem form00z0_encodesAs : ∀ y : Fin 8, (form00z0 y).EncodesAs (opByte 0 y 0)
  | 0 | 1 | 2 | 3 | 4 | 5 | 6 | 7 => encodesAs_one rfl rfl

theorem form00z2_encodesAs : ∀ y : Fin 8, (form00z2 y).EncodesAs (opByte 0 y 2)
  | 0 | 1 | 2 | 3 => encodesAs_one rfl rfl
  | 4 | 5 | 6 | 7 => encodesAs_three (fun _ => rfl) fun _ => rfl

theorem form00z7_encodesAs : ∀ y : Fin 8, (form00z7 y).EncodesAs (opByte 0 y 7)
  | 0 | 1 | 2 | 3 | 4 | 5 | 6 | 7 => encodesAs_one rfl rfl

/-- Group 00 (R90). -/
theorem form00_encodesAs (y : Fin 8) : ∀ z : Fin 8, (form00 y z).EncodesAs (opByte 0 y z)
  | 0 => form00z0_encodesAs y
  | 1 => pairColumn_encodesAs (op := fun c => opByte 0 c 1)
      (fun _ => encodesAs_three (fun _ => rfl) fun _ => rfl) (fun _ => encodesAs_one rfl rfl) y
  | 2 => form00z2_encodesAs y
  | 3 => pairColumn_encodesAs (op := fun c => opByte 0 c 3)
      (fun _ => encodesAs_one rfl rfl) (fun _ => encodesAs_one rfl rfl) y
  | 4 => regOrM_encodesAs (op := fun c => opByte 0 c 4) (fun _ => encodesAs_one rfl rfl) (encodesAs_one rfl rfl) y
  | 5 => regOrM_encodesAs (op := fun c => opByte 0 c 5) (fun _ => encodesAs_one rfl rfl) (encodesAs_one rfl rfl) y
  | 6 => regOrM_encodesAs (op := fun c => opByte 0 c 6)
      (fun _ => encodesAs_two (fun _ => rfl) fun _ => rfl) (encodesAs_two (fun _ => rfl) fun _ => rfl) y
  | 7 => form00z7_encodesAs y

/-- Group 01 (R91). -/
theorem form01_encodesAs (y z : Fin 8) : (form01 y z).EncodesAs (opByte 1 y z) := by
  unfold form01
  obtain ⟨rd, hd, hy⟩ | ⟨hd, hy⟩ := regOfCode_cases y
  all_goals obtain ⟨rs, hs, hz⟩ | ⟨hs, hz⟩ := regOfCode_cases z
  all_goals
    rw [hd, hs, hy, hz]
    exact encodesAs_one rfl rfl

/-- Group 10 (R92). -/
theorem form10_encodesAs (y z : Fin 8) : (form10 y z).EncodesAs (opByte 2 y z) := by
  match y with
  | 0 | 1 | 2 | 3 | 4 | 5 | 6 | 7 =>
    exact regOrM_encodesAs (op := opByte 2 _) (fun _ => encodesAs_one rfl rfl) (encodesAs_one rfl rfl) z

theorem form11z0_encodesAs : ∀ y : Fin 8, (form11z0 y).EncodesAs (opByte 3 y 0)
  | 0 | 1 | 2 | 3 | 4 | 5 | 6 | 7 => encodesAs_one rfl rfl

theorem form11z1_encodesAs : ∀ y : Fin 8, (form11z1 y).EncodesAs (opByte 3 y 1)
  | 0 | 1 | 2 | 3 | 4 | 5 | 6 | 7 => encodesAs_one rfl rfl

theorem form11z2_encodesAs : ∀ y : Fin 8, (form11z2 y).EncodesAs (opByte 3 y 2)
  | 0 | 1 | 2 | 3 | 4 | 5 | 6 | 7 => encodesAs_three (fun _ => rfl) fun _ => rfl

theorem form11z3_encodesAs : ∀ y : Fin 8, (form11z3 y).EncodesAs (opByte 3 y 3)
  | 0 => encodesAs_three (fun _ => rfl) fun _ => rfl
  | 2 | 3 => encodesAs_two (fun _ => rfl) fun _ => rfl
  | 1 | 4 | 5 | 6 | 7 => encodesAs_one rfl rfl

theorem form11z4_encodesAs : ∀ y : Fin 8, (form11z4 y).EncodesAs (opByte 3 y 4)
  | 0 | 1 | 2 | 3 | 4 | 5 | 6 | 7 => encodesAs_three (fun _ => rfl) fun _ => rfl

theorem form11z5_encodesAs : ∀ y : Fin 8, (form11z5 y).EncodesAs (opByte 3 y 5)
  | 1 => encodesAs_three (fun _ => rfl) fun _ => rfl
  | 0 | 2 | 3 | 4 | 5 | 6 | 7 => encodesAs_one rfl rfl

theorem form11z6_encodesAs : ∀ y : Fin 8, (form11z6 y).EncodesAs (opByte 3 y 6)
  | 0 | 1 | 2 | 3 | 4 | 5 | 6 | 7 => encodesAs_two (fun _ => rfl) fun _ => rfl

/-- Group 11 (R93). -/
theorem form11_encodesAs (y : Fin 8) : ∀ z : Fin 8, (form11 y z).EncodesAs (opByte 3 y z)
  | 0 => form11z0_encodesAs y
  | 1 => form11z1_encodesAs y
  | 2 => form11z2_encodesAs y
  | 3 => form11z3_encodesAs y
  | 4 => form11z4_encodesAs y
  | 5 => form11z5_encodesAs y
  | 6 => form11z6_encodesAs y
  | 7 => encodesAs_one (decide_eq_true y.isLt) rfl

/-- A byte is made of its three octal fields (R81). -/
theorem opByte_fields (op : Byte) :
    opByte (Fin.ofNat 4 (op.toNat / 64)) (Fin.ofNat 8 (op.toNat / 8)) (Fin.ofNat 8 op.toNat) = op := by
  have hop := op.isLt
  apply BitVec.eq_of_toNat_eq
  simp only [opByte, Fin.ofNat, BitVec.toNat_ofNat]
  omega

/-- Every first byte encodes the instructions it makes (R95). -/
theorem formOf_encodesAs (op : Byte) : (formOf op).EncodesAs op := by
  have hop := opByte_fields op
  unfold formOf
  generalize Fin.ofNat 4 (op.toNat / 64) = x, Fin.ofNat 8 (op.toNat / 8) = y, Fin.ofNat 8 op.toNat = z at hop ⊢
  subst hop
  match x with
  | 0 => exact form00_encodesAs y z
  | 1 => exact form01_encodesAs y z
  | 2 => exact form10_encodesAs y z
  | 3 => exact form11_encodesAs y z

/-- Settles O2: the decoder goes by the form of the first byte, and that byte encodes what its form reads. -/
theorem encodeOfDecodeIsTheBytes : Obligations.EncodeOfDecodeIsTheBytes := by
  intro bs rest i h
  obtain ⟨op, ops, rfl, hr⟩ := reads_of_decode h
  obtain ⟨hw, he⟩ := formOf_encodesAs op ops i hr
  exact ⟨hw, by rw [he]; rfl⟩

/-! ## Length -/

theorem length_encode_instrOf (op b2 b3 : Byte) : (encode (instrOf op b2 b3)).length = lengthOf op := by
  obtain ⟨ops, hr⟩ := (formOf op).reads_instr b2 b3
  obtain ⟨-, he⟩ := formOf_encodesAs op ops _ hr
  rw [instrOf, he, List.length_cons, hr.length_ops, lengthOf]

/-- The first bytes of the three-byte instructions (R98). -/
def threeByteCodes : List Byte :=
  [0x01#8, 0x11#8, 0x21#8, 0x31#8, 0x22#8, 0x2A#8, 0x32#8, 0x3A#8, 0xC3#8, 0xC2#8, 0xCA#8, 0xD2#8, 0xDA#8,
   0xE2#8, 0xEA#8, 0xF2#8, 0xFA#8, 0xCD#8, 0xC4#8, 0xCC#8, 0xD4#8, 0xDC#8, 0xE4#8, 0xEC#8, 0xF4#8, 0xFC#8]

/-- The first bytes of the two-byte instructions (R98). -/
def twoByteCodes : List Byte :=
  [0x06#8, 0x0E#8, 0x16#8, 0x1E#8, 0x26#8, 0x2E#8, 0x36#8, 0x3E#8, 0xC6#8, 0xCE#8, 0xD6#8, 0xDE#8, 0xE6#8, 0xEE#8,
   0xF6#8, 0xFE#8, 0xD3#8, 0xDB#8]

theorem lengthOf_of_mem_threeByteCodes : ∀ op ∈ threeByteCodes, lengthOf op = 3 := by decide

theorem lengthOf_of_mem_twoByteCodes : ∀ op ∈ twoByteCodes, lengthOf op = 2 := by decide

/-- The two lists name every first byte of the opcode map that takes an operand byte. -/
theorem listed_of_lengthOf_ne_one : ∀ op : Byte, lengthOf op ≠ 1 → op ∈ twoByteCodes ∨ op ∈ threeByteCodes := by decide

/-- The length of every first byte; the ten undefined ones have length 1 too. -/
theorem lengthOf_eq (op : Byte) :
    lengthOf op = if op ∈ threeByteCodes then 3 else if op ∈ twoByteCodes then 2 else 1 := by
  split
  next h3 => exact lengthOf_of_mem_threeByteCodes op h3
  next h3 =>
    split
    next h2 => exact lengthOf_of_mem_twoByteCodes op h2
    next h2 => exact not_not.1 fun h => (listed_of_lengthOf_ne_one op h).elim h2 h3

/-- A conditional jump or call whose condition is false moves over its three bytes (R98, 43_branch.md R200). -/
theorem jumpIf_callIf_untaken {s : State} {cc : Cond} (h : s.flags.cond cc = false) (a : Word) :
    s.jumpIf cc a = s.advance 3 ∧ s.callIf cc a = s.advance 3 := by
  simp [State.jumpIf, State.callIf, h]

/-- Settles O3: the length is that of the first byte's form, and an untaken jump or call advances PC by it. -/
theorem lengthFollowsFromFirstByte : Obligations.LengthFollowsFromFirstByte := by
  refine ⟨fun op b2 b3 _ => (length_encode_instrOf op b2 b3).trans (lengthOf_eq op), fun s cc a h => ?_⟩
  obtain ⟨hj, hc⟩ := jumpIf_callIf_untaken h a
  exact ⟨⟨_, (exec_condJump cc a s).trans (congrArg _ hj), rfl⟩,
    ⟨_, (exec_condCall cc a s).trans (congrArg _ hc), rfl⟩⟩

end Sys2Proof
end

section
/-! PROOFS. The step and the bytes it fetches: what runs at PC, the undefined first bytes, and a placed instruction. Settles
O5, O40 and O60. -/

namespace Sys2Proof.Machine

/-! ## The decoded instruction -/

/-- Taking the answer and beginning the instruction do not move PC, where the instruction is fetched (10_state.md R25). -/
theorem State.sample_begin_instrAt (s : State) :
    s.sample.begin.instrAt =
      instrOf (s.sample.begin.readByte s.pc) (s.sample.begin.readByte (s.pc + 1))
        (s.sample.begin.readByte (s.pc + 2)) := by
  rw [State.instrAt, State.begin_pc, State.sample_pc]

/-- Settles O40: the fetch reads what the decoder reads, and the begun state is `s` with the fields that `State.sample` and
`State.begin` set. -/
theorem stepRunsTheDecodedInstruction : Obligations.StepRunsTheDecodedInstruction := by
  intro s i rest hb hd
  obtain ⟨hw, -⟩ := encodeOfDecodeIsTheBytes _ _ _ hd
  have hi : s.sample.begin.instrAt = i := s.sample_begin_instrAt.trans (instrOf_of_decode hd)
  exact ⟨hw, by rw [step_run hb, hi], rfl⟩

/-! ## The undefined first bytes (30_encoding.md R96) -/

theorem formOf_undefined : ∀ x ∈ undefinedOpcodes, formOf x.1 = .one x.2 := by
  intro x hx
  fin_cases hx <;> rfl

theorem instrOf_undefined {x : Byte × Instr} (hx : x ∈ undefinedOpcodes) (b2 b3 : Byte) : instrOf x.1 b2 b3 = x.2 := by
  rw [instrOf, formOf_undefined x hx]
  rfl

theorem exec_undefined : ∀ x ∈ undefinedOpcodes, ∀ s, exec x.2 s = .refused (.undefinedOpcode x.1) := by
  intro x hx s
  fin_cases hx <;> rfl

/-- A reset inside an instruction does not spare its refusal (entry 26). -/
theorem State.resetInRun_refused {s : State} {r : Refusal} (h : exec s.instrAt s = .refused r) (c : Cut) :
    s.resetInRun c = .refused r := by
  simp only [State.resetInRun, h]

/-- Where an instruction is fetched that is refused, the step is that refusal, cut short or not. -/
theorem step_refused {s : State} {r : Refusal}
    (hb : s.sample.boundary = .run ∨ ∃ c, s.sample.boundary = .resetInRun c)
    (h : exec s.sample.begin.instrAt s.sample.begin = .refused r) : step s = .refused r := by
  obtain hb | ⟨c, hb⟩ := hb
  · exact (step_run hb).trans h
  · exact (step_resetInRun hb).trans (State.resetInRun_refused h c)

/-- Settles O5: such a byte is a form of its own, whose meaning is the refusal. -/
theorem undefinedFirstBytesAreRefused : Obligations.UndefinedFirstBytesAreRefused := by
  refine fun x hx => ⟨instrOf_undefined hx, exec_undefined x hx, fun s hb hop => step_refused hb ?_⟩
  have hi : s.sample.begin.instrAt = x.2 := by
    rw [State.sample_begin_instrAt, hop, instrOf_undefined hx]
  rw [hi, exec_undefined x hx]

/-! ## A placed instruction (entry 30) -/

/-- An answer with no reset, no request and no event at the boundary (60_exceptions.md R274). -/
structure Inputs.Silent (x : Inputs) : Prop where
  reset : x.reset = false
  cut : x.cut = none
  trapReq : x.trapReq = false
  i75Event : x.i75Event = false
  i65Req : x.i65Req = false
  i55Req : x.i55Req = false
  extOp : x.extOp = none

/-- Without a request or an event, an RST 7.5 latched earlier is all that can be effective. -/
theorem State.not_effective_of_silent {s : State} (hx : s.nextInputs.Silent)
    (h75 : (s.ctl.ff75 && s.ctl.ie && !s.ctl.m75) = false) (src : Config.IntSource) :
    s.sample.effective src = false := by
  obtain ⟨-, -, htrap, he75, h65, h55, hext⟩ := hx
  cases src with
  | trap => exact htrap
  | rst75 => simpa [State.effective, Control.latch75, he75] using h75
  | rst65 => simp [State.effective, h65]
  | rst55 => simp [State.effective, h55]
  | external => simp [State.effective, hext]

theorem State.boundary_run_of_silent {s : State} (hx : s.nextInputs.Silent) (hh : s.ctl.halted = false)
    (h75 : (s.ctl.ff75 && s.ctl.ie && !s.ctl.m75) = false) : s.sample.boundary = .run := by
  have hh' : s.sample.ctl.halted = false := hh
  rw [State.boundary_idle hx.reset (State.accepted_none_of_not_effective (State.not_effective_of_silent hx h75)), hh',
    State.sample_inputs, hx.cut]
  rfl

theorem State.placeInstr_silent (s : State) (b1 b2 b3 : Byte) : (s.placeInstr b1 b2 b3).nextInputs.Silent := by
  rw [State.nextInputs, State.placeInstr_script]
  cases s.script <;> exact ⟨rfl, rfl, rfl, rfl, rfl, rfl, rfl⟩

theorem State.placeInstr_boundary (s : State) (b1 b2 b3 : Byte) : (s.placeInstr b1 b2 b3).sample.boundary = .run :=
  State.boundary_run_of_silent (s.placeInstr_silent b1 b2 b3) rfl (by
    simp only [State.placeInstr_ff75, State.placeInstr_ie, State.placeInstr_m75]
    cases s.ctl.ff75 <;> cases s.ctl.ie <;> cases s.ctl.m75 <;> rfl)

/-- Where an address is not absent, the advance of the counter of draws does not change what is read there. -/
theorem State.sample_begin_readByte_of_look {s : State} {a : Word} {v : Byte} (h : s.regionAt a ≠ .absent)
    (hl : Memory.look s.mem a.toNat = some v) : s.sample.begin.readByte a = v :=
  State.readByte_of_look (by rwa [State.begin_regionAt, State.sample_regionAt])
    (by rwa [State.begin_mem, State.sample_mem])

theorem State.placeInstr_mem (s : State) (b1 b2 b3 : Byte) :
    (s.placeInstr b1 b2 b3).mem = Memory.place3 s.mem s.pc b1 b2 b3 := rfl

/-- The placed bytes are fetched. -/
theorem State.placeInstr_begin_instrAt (s : State) (b1 b2 b3 : Byte) :
    (s.placeInstr b1 b2 b3).sample.begin.instrAt = instrOf b1 b2 b3 := by
  obtain ⟨h1, h2, h3⟩ := Memory.look_place3 s.mem s.pc b1 b2 b3
  rw [← State.placeInstr_mem] at h1 h2 h3
  have hpresent {x : Word} := State.placeInstr_regionAt s b1 b2 b3 (x := x)
  rw [State.sample_begin_instrAt, State.placeInstr_pc,
    State.sample_begin_readByte_of_look (hpresent (.inl rfl)) h1,
    State.sample_begin_readByte_of_look (hpresent (.inr (.inl rfl))) h2,
    State.sample_begin_readByte_of_look (hpresent (.inr (.inr rfl))) h3]

/-- The bytes of a word of the opcode table that decodes make its instruction. -/
theorem instrOf_of_decodeTableWord {nbits w : Nat} {i : Instr} (h : decodeTableWord nbits w = some i) :
    ∃ b1 b2 b3, tableBytes nbits w = [b1, b2, b3] ∧ instrOf b1 b2 b3 = i := by
  unfold decodeTableWord at h
  split at h <;> cases h
  next hd => exact ⟨_, _, _, rfl, instrOf_of_decode hd⟩

/-- Settles O60: placing takes away all that could intervene, and the three bytes are fetched. -/
theorem placedInstructionRunsNext : Obligations.PlacedInstructionRunsNext := by
  intro s nbits w i h
  obtain ⟨b1, b2, b3, hbytes, hi⟩ := instrOf_of_decodeTableWord h
  have hs : s.withFetchWord nbits w = s.placeInstr b1 b2 b3 := by
    simp only [State.withFetchWord, State.placeWord, hbytes]
  have hb := s.placeInstr_boundary b1 b2 b3
  rw [hs]
  exact ⟨hb, by rw [step_run hb, State.placeInstr_begin_instrAt, hi]⟩

end Sys2Proof.Machine
end

section
/-! PROOFS. The data transfer group (40_data_transfer.md): settles O6, O7, O8 and O9. -/

namespace Sys2Proof.Machine

/-- An instruction that writes no control flip-flop and makes no output changes only the registers and bytes that the
tables name for it. -/
theorem keeps_of_exec {i : Instr} {s t : State} {rs : List Reg} {as : List Word} (h : exec i s = .next t)
    (hr : regsWritten i ⊆ rs) (ha : s.storedAddresses i ⊆ as) (hc : ctlWritten i = false := by rfl)
    (hout : ∀ port, i ≠ .outPort port := by nofun) (hsim : i ≠ .sim := by nofun) : Keeps rs as s t :=
  have hi := exec_framed i s t h
  ⟨hi.regs.mono hr, hi.bytes.mono ha, ⟨hi.ctl hc, hi.out hout, hi.sod hsim⟩, hi.world⟩

/-! ## One register, one byte -/

/-- Settles O6: each meaning ends in one register write. -/
theorem registerLoadResults : Obligations.RegisterLoadResults :=
  fun _ => ⟨fun _ _ => loadsReg_of rfl, fun _ => loadsReg_of rfl, fun _ _ => loadsReg_of rfl, fun _ => loadsReg_of rfl,
    loadsReg_of rfl, loadsReg_of rfl⟩

/-- Settles O7: each meaning ends in one byte written. -/
theorem storeResults : Obligations.StoreResults :=
  fun _ => ⟨fun _ => storesByte_of rfl, fun _ => storesByte_of rfl, fun _ => storesByte_of rfl, storesByte_of rfl,
    storesByte_of rfl⟩

/-! ## A pair -/

/-- LXI of a pair of two registers, the high-order one first (10_state.md R23). -/
theorem lxi_loads_pair {p : Pair} {rh rl : Reg} (s : State) (hi lo : Byte) (hne : rh ≠ rl)
    (hregs : regsWritten (.lxi p (join hi lo)) ⊆ [rh, rl])
    (hp : ∀ w, s.writePair p w = (s.writeReg rh (high w)).writeReg rl (low w)) :
    ∃ t, exec (.lxi p (join hi lo)) s = .next t ∧ t.readReg rh = hi ∧ t.readReg rl = lo ∧ t.flags = s.flags ∧
      t.sp = s.sp ∧ t.pc = s.pc + 3 ∧ Keeps [rh, rl] [] s t := by
  have he : exec (.lxi p (join hi lo)) s = .next (((s.writeReg rh hi).writeReg rl lo).advance 3) := by
    change Host.Outcome.next ((s.writePair p (join hi lo)).advance 3) = _
    rw [hp, high_join, low_join]
  have hhi : ((s.writeReg rh hi).writeReg rl lo).readReg rh = hi := by
    simp [State.readReg_writeReg, hne]
  have hlo : ((s.writeReg rh hi).writeReg rl lo).readReg rl = lo := by
    simp [State.readReg_writeReg]
  exact ⟨_, he, hhi, hlo, rfl, rfl, rfl, keeps_of_exec he hregs (List.nil_subset _)⟩

/-- XCHG moves whole pairs; their bytes are the registers exchanged (40 R123). -/
theorem exec_xchg (s : State) :
    exec .xchg s =
      .next ((s.withRegs { s.regs with h := s.regs.d, l := s.regs.e, d := s.regs.h, e := s.regs.l }).advance 1) := by
  change Host.Outcome.next (((s.writePair .hl s.de).writePair .de s.hl).advance 1) = _
  simp only [State.writePair, State.de, State.hl, high_join, low_join]
  rfl

/-- Settles O8: LXI by the pair it names, XCHG by its exchange of the four registers. -/
theorem lxiAndXchgResults : Obligations.LxiAndXchgResults := by
  intro s hi lo
  refine ⟨?_, ?_, ?_⟩
  · simp only [List.forall_mem_cons]
    exact ⟨lxi_loads_pair s hi lo nofun (List.Subset.refl _) fun _ => rfl,
      lxi_loads_pair s hi lo nofun (List.Subset.refl _) fun _ => rfl,
      lxi_loads_pair s hi lo nofun (List.Subset.refl _) fun _ => rfl, nofun⟩
  · exact ⟨_, rfl, rfl, rfl, rfl,
      keeps_of_exec (i := .lxi .sp (join hi lo)) rfl (List.Subset.refl _) (List.nil_subset _)⟩
  · exact ⟨_, exec_xchg s, rfl, rfl, rfl, rfl, rfl, rfl, rfl,
      keeps_of_exec (exec_xchg s) (by simp [regsWritten]) (List.nil_subset _)⟩

/-! ## Two bytes of memory -/

/-- Of two stores at different addresses, the first is read back too. -/
theorem State.readByte_writeByte_writeByte_first {s : State} {a b : Word} (hab : a ≠ b) (h : s.regionAt a = .ram)
    (v w : Byte) : ((s.writeByte a v).writeByte b w).readByte a = v := by
  rw [State.readByte_writeByte_other _ _ hab, State.readByte_writeByte_same h]

/-- The second of two stores is read back. -/
theorem State.readByte_writeByte_writeByte_second {s : State} {a b : Word} (h : s.regionAt b = .ram) (v w : Byte) :
    ((s.writeByte a v).writeByte b w).readByte b = w :=
  State.readByte_writeByte_same (by simpa using h) w

/-- A store changes only a byte of RAM. -/
theorem State.readByte_writeByte_not_ram {s : State} {x : Word} (h : s.regionAt x ≠ .ram) (a : Word) (v : Byte) :
    (s.writeByte a v).readByte x = s.readByte x := by
  by_cases hxa : x = a
  · rw [← hxa, State.writeByte_not_ram h]
  · exact State.readByte_writeByte_other s v hxa

/-- Two stores change only bytes of RAM. -/
theorem State.readByte_writeByte_writeByte_not_ram {s : State} {x : Word} (h : s.regionAt x ≠ .ram) (a b : Word)
    (v w : Byte) : ((s.writeByte a v).writeByte b w).readByte x = s.readByte x := by
  rw [State.readByte_writeByte_not_ram (by simpa using h), State.readByte_writeByte_not_ram h]

theorem exec_lhld (s : State) (a : Word) :
    exec (.lhld a) s = .next (((s.writeReg .l (s.readByte a)).writeReg .h (s.readByte (a + 1))).advance 3) := rfl

theorem exec_shld (s : State) (a : Word) :
    exec (.shld a) s = .next (((s.writeByte a s.regs.l).writeByte (a + 1) s.regs.h).advance 3) := rfl

/-- Settles O9: LHLD writes L and H, SHLD stores two bytes whose addresses never coincide. -/
theorem lhldAndShldResults : Obligations.LhldAndShldResults := by
  intro s a
  constructor
  · exact ⟨_, exec_lhld s a, rfl, rfl, rfl, rfl, rfl,
      keeps_of_exec (exec_lhld s a) (by simp [regsWritten]) (List.nil_subset _)⟩
  · exact ⟨_, exec_shld s a,
      fun hr => State.readByte_writeByte_writeByte_first (add_one_ne_self a).symm hr s.regs.l s.regs.h,
      fun hr => State.readByte_writeByte_writeByte_second hr s.regs.l s.regs.h,
      fun hr => State.readByte_writeByte_writeByte_not_ram hr a (a + 1) s.regs.l s.regs.h,
      fun hr => State.readByte_writeByte_writeByte_not_ram hr a (a + 1) s.regs.l s.regs.h,
      rfl, rfl, rfl, keeps_of_exec (exec_shld s a) (List.nil_subset _) (List.Subset.refl _)⟩

end Sys2Proof.Machine
end

section
/-! PROOFS. The arithmetic group (41_arithmetic.md): settles O10, O11, O14 to O20. -/

namespace Sys2Proof.Machine

/-! ## Addition and subtraction -/

/-- An addition without a carry in. -/
theorem add8_value_false (x y : Byte) : (add8 x y false).value = x + y :=
  (add8_value x y false).trans (BitVec.add_zero _)

/-- A subtraction without a borrow in. -/
theorem sub8_value_false (zn : Bool) (x y : Byte) : (sub8 zn x y false).value = x - y :=
  (sub8_value zn x y false).trans (BitVec.sub_zero _)

/-- Settles O10: each meaning puts the result of `Add8` into the accumulator and the flags. -/
theorem additionResults : Obligations.AdditionResults :=
  fun s => ⟨fun rs => setsAccumulator_of rfl (add8_value_false _ (s.readReg rs)) (add8_flags _ _ _),
    setsAccumulator_of rfl (add8_value_false _ s.readM) (add8_flags _ _ _),
    fun v => setsAccumulator_of rfl (add8_value_false _ v) (add8_flags _ _ _),
    fun rs => setsAccumulator_of rfl (add8_value _ (s.readReg rs) _) (add8_flags _ _ _),
    setsAccumulator_of rfl (add8_value _ s.readM _) (add8_flags _ _ _),
    fun v => setsAccumulator_of rfl (add8_value _ v _) (add8_flags _ _ _)⟩

/-- Settles O11: each meaning puts the result of `Sub8` into the accumulator and the flags. -/
theorem subtractionResults : Obligations.SubtractionResults :=
  fun s => ⟨fun rs => setsAccumulator_of rfl (sub8_value_false _ _ (s.readReg rs)) (sub8_flags _ _ _ _),
    setsAccumulator_of rfl (sub8_value_false _ _ s.readM) (sub8_flags _ _ _ _),
    fun v => setsAccumulator_of rfl (sub8_value_false _ _ v) (sub8_flags _ _ _ _),
    fun rs => setsAccumulator_of rfl (sub8_value _ _ (s.readReg rs) _) (sub8_flags _ _ _ _),
    setsAccumulator_of rfl (sub8_value _ _ s.readM _) (sub8_flags _ _ _ _),
    fun v => setsAccumulator_of rfl (sub8_value _ _ v _) (sub8_flags _ _ _ _)⟩

/-! ## Increment and decrement -/

/-- INR r and DCR r: the register and the flags take the stepped byte. -/
theorem countReg_of {i : Instr} {s : State} {rd : Reg} {r : AluResult} {v : Byte} {carry : Prop}
    (h : exec i s = .next (((s.writeReg rd r.value).withFlags r.flags).advance 1)) (hv : r.value = v)
    (hf : FlagsOf v r.flags ∧ (r.flags.ac = true ↔ carry) ∧ r.flags.cy = s.flags.cy) :
    ∃ t, exec i s = .next t ∧ t.readReg rd = v ∧ FlagsOf v t.flags ∧ (t.flags.ac = true ↔ carry) ∧
      t.flags.cy = s.flags.cy ∧ t.sp = s.sp ∧ t.pc = s.pc + 1 ∧ Keeps [rd] [] s t := by
  obtain ⟨hszp, hac, hcy⟩ := hf
  exact ⟨_, h, (Regs.get_set_same _ _ _).trans hv, hszp, hac, hcy, rfl, rfl,
    keeps_of_fields (keepsRegs_set rfl) rfl rfl rfl rfl ⟨rfl, rfl, rfl, rfl⟩⟩

/-- Settles O14: each meaning puts the result of `inc8` or `dec8` into the register and the flags. -/
theorem registerStepResults : Obligations.RegisterStepResults :=
  fun s rd => ⟨countReg_of rfl (inc8_value s.flags (s.readReg rd)) (inc8_flags _ _),
    countReg_of rfl (dec8_value s.flags (s.readReg rd)) (dec8_flags _ _)⟩

/-- INR M and DCR M: the byte at HL, where there is RAM, and the flags take the stepped byte. -/
theorem countM_of {i : Instr} {s : State} {r : AluResult} {v : Byte} {carry : Prop}
    (h : exec i s = .next (((s.writeM r.value).withFlags r.flags).advance 1)) (hv : r.value = v)
    (hf : FlagsOf v r.flags ∧ (r.flags.ac = true ↔ carry) ∧ r.flags.cy = s.flags.cy) :
    ∃ t, exec i s = .next t ∧ (s.regionAt s.hl = .ram → t.readByte s.hl = v) ∧
      (s.regionAt s.hl ≠ .ram → t.readByte s.hl = s.readByte s.hl) ∧ FlagsOf v t.flags ∧
      (t.flags.ac = true ↔ carry) ∧ t.flags.cy = s.flags.cy ∧ t.sp = s.sp ∧ t.pc = s.pc + 1 ∧ Keeps [] [s.hl] s t := by
  obtain ⟨hszp, hac, hcy⟩ := hf
  exact ⟨_, h, fun hr => (State.readByte_writeByte_same hr r.value).trans hv,
    fun hr => State.readByte_writeByte_not_ram hr s.hl r.value, hszp, hac, hcy, rfl, rfl, .of_eq rfl,
    keepsBytes_of_writeByte (v := r.value) fun _ => rfl, ⟨rfl, rfl, rfl⟩, ⟨rfl, rfl, rfl, rfl⟩⟩

/-- Settles O15: each meaning puts the result of `inc8` or `dec8` into the byte at HL and the flags. -/
theorem memoryStepResults : Obligations.MemoryStepResults :=
  fun s => ⟨countM_of rfl (inc8_value s.flags s.readM) (inc8_flags _ _),
    countM_of rfl (dec8_value s.flags s.readM) (dec8_flags _ _)⟩

/-! ## Sixteen bits: INX, DCX, DAD -/

@[simp] theorem State.advance_readPair (s : State) (n : Nat) (p : Pair) : (s.advance n).readPair p = s.readPair p := by
  cases p <;> rfl

/-- INX and DCX: the pair takes a word, and nothing else changes but PC. -/
theorem countPair_of {i : Instr} {s : State} {p : Pair} {w : Word} {n : Nat}
    (h : exec i s = .next ((s.writePair p w).advance 1)) (hw : w.toNat = n) :
    ∃ t, exec i s = .next t ∧ (t.readPair p).toNat = n ∧ t.flags = s.flags ∧ (p ≠ .sp → t.sp = s.sp) ∧
      t.pc = s.pc + 1 ∧ Keeps (pairRegs p) [] s t := by
  refine ⟨_, h, ?_, by simp, fun hp => ?_, by simp, ?_⟩
  · rw [State.advance_readPair, State.readPair_writePair, hw]
  · exact State.writePair_sp_of_ne (by simpa using hp) s w
  · exact keeps_of_fields (keepsRegs_writePair rfl) (by simp) (by simp) (by simp) (by simp)
      ⟨by simp, by simp, by simp, by simp⟩

/-- Settles O16: both meanings end in one pair written. -/
theorem pairStepResults : Obligations.PairStepResults :=
  fun s p => ⟨countPair_of rfl (BitVec.toNat_add (s.readPair p) 1),
    countPair_of rfl (by bv_omega)⟩

/-- Settles O17: HL takes the sum, CY its bit 16. -/
theorem dadResults : Obligations.DadResults := by
  intro s p
  have hsum : (s.hl + s.readPair p).toNat = (s.hl.toNat + (s.readPair p).toNat) % 65536 := BitVec.toNat_add _ _
  have hcarry : dadCarry s.hl (s.readPair p) = true ↔ 65536 ≤ s.hl.toNat + (s.readPair p).toNat := decide_eq_true_iff
  exact ⟨_, rfl, (congrArg BitVec.toNat (State.readPair_writePair s .hl _)).trans hsum, hcarry, rfl, rfl, rfl, rfl, rfl,
    rfl, keeps_of_exec (i := .dad p) rfl (List.Subset.refl _) (List.nil_subset _)⟩

/-! ## DAA (41 R162, 92_eei_decisions.md D4) -/

/-- The one-shot reading corrects the low digit. -/
def DaaLow (f : Flags) (a : Byte) : Prop := 9 < a.toNat % 16 ∨ f.ac = true

/-- The one-shot reading corrects the high digit. -/
def DaaHigh (f : Flags) (a : Byte) : Prop :=
  9 < a.toNat / 16 ∨ f.cy = true ∨ (a.toNat / 16 = 9 ∧ 9 < a.toNat % 16)

/-- Step 1 of DAA, as a number: the accumulator, with 6 added where the low digit is corrected. -/
def daaLowFixed (f : Flags) (a : Byte) : Nat :=
  if decide (lowNibble a > 9) || f.ac then a.toNat + 6 else a.toNat

/-- Whether step 2 of DAA corrects the high digit, decided from what step 1 left. -/
def daaHighFix (f : Flags) (a : Byte) : Bool :=
  decide (highNibble (BitVec.ofNat 8 (daaLowFixed f a)) > 9) || f.cy || decide (daaLowFixed f a > 255)

theorem daa8_value_eq (f : Flags) (a : Byte) :
    (daa8 f a).value =
      if daaHighFix f a then BitVec.ofNat 8 ((BitVec.ofNat 8 (daaLowFixed f a)).toNat + 0x60)
      else BitVec.ofNat 8 (daaLowFixed f a) := rfl

theorem daa8_cy_eq (f : Flags) (a : Byte) : (daa8 f a).flags.cy = (f.cy || daaHighFix f a) := rfl

theorem daa8_ac_eq (f : Flags) (a : Byte) :
    (daa8 f a).flags.ac = ((decide (lowNibble a > 9) || f.ac) && decide (lowNibble a + 6 > 15)) := rfl

theorem daaLowFixed_of_low {f : Flags} {a : Byte} (h : DaaLow f a) : daaLowFixed f a = a.toNat + 6 :=
  if_pos (by simpa [DaaLow, lowNibble] using h)

theorem daaLowFixed_of_not_low {f : Flags} {a : Byte} (h : ¬DaaLow f a) : daaLowFixed f a = a.toNat :=
  if_neg (by simpa [DaaLow, lowNibble] using h)

/-- The two readings agree: step 1 pushes the high digit above 9 only from 9, and only with a carry out of the low digit. -/
theorem daaHighFix_iff (f : Flags) (a : Byte) : daaHighFix f a = true ↔ DaaHigh f a := by
  have ha := a.isLt
  simp only [daaHighFix, highNibble, BitVec.toNat_ofNat, Bool.or_eq_true, decide_eq_true_eq, DaaHigh]
  by_cases hcy : f.cy = true
  · simp only [hcy, or_true, true_or]
  simp only [hcy, Bool.false_eq_true, or_false, false_or]
  by_cases hlow : DaaLow f a
  · rw [daaLowFixed_of_low hlow]
    omega
  · have hdigit : ¬9 < a.toNat % 16 := fun h => hlow (.inl h)
    rw [daaLowFixed_of_not_low hlow]
    omega

theorem daa8_cy_iff (f : Flags) (a : Byte) : (daa8 f a).flags.cy = true ↔ DaaHigh f a := by
  rw [daa8_cy_eq, Bool.or_eq_true, daaHighFix_iff]
  exact or_iff_right_of_imp fun h => .inr (.inl h)

theorem daa8_ac_iff (f : Flags) (a : Byte) : (daa8 f a).flags.ac = true ↔ DaaLow f a ∧ 9 < a.toNat % 16 := by
  rw [daa8_ac_eq, Bool.and_eq_true, Bool.or_eq_true, decide_eq_true_iff, decide_eq_true_iff, DaaLow, lowNibble]
  exact and_congr_right' (by omega)

/-- The new accumulator: 6 for the low digit, 60H for the high one, mod 256. -/
theorem daa8_value_toNat (f : Flags) (a : Byte) {lo hi : Nat} (hlo : DaaLow f a ∧ lo = 6 ∨ ¬DaaLow f a ∧ lo = 0)
    (hhi : DaaHigh f a ∧ hi = 96 ∨ ¬DaaHigh f a ∧ hi = 0) :
    (daa8 f a).value.toNat = (a.toNat + lo + hi) % 256 := by
  have hfixed : daaLowFixed f a = a.toNat + lo := by
    obtain ⟨h, rfl⟩ | ⟨h, rfl⟩ := hlo
    · exact daaLowFixed_of_low h
    · exact daaLowFixed_of_not_low h
  rw [daa8_value_eq, hfixed]
  obtain ⟨h, rfl⟩ | ⟨h, rfl⟩ := hhi
  · rw [if_pos ((daaHighFix_iff f a).2 h), BitVec.toNat_ofNat, BitVec.toNat_ofNat]
    omega
  · rw [if_neg (mt (daaHighFix_iff f a).1 h), BitVec.toNat_ofNat, Nat.add_zero]

/-- The new accumulator as one addition of the byte `v`. -/
theorem daa8_value {f : Flags} {a v : Byte} {lo hi : Nat} (hlo : DaaLow f a ∧ lo = 6 ∨ ¬DaaLow f a ∧ lo = 0)
    (hhi : DaaHigh f a ∧ hi = 96 ∨ ¬DaaHigh f a ∧ hi = 0) (hv : v.toNat = lo + hi) : (daa8 f a).value = a + v := by
  apply BitVec.eq_of_toNat_eq
  rw [daa8_value_toNat f a hlo hhi, BitVec.toNat_add, hv, Nat.add_assoc]

/-- Settles O18: `DaaLow` and `DaaHigh` are the two corrections of the one-shot reading. -/
theorem daaIsTheSingleCorrection : Obligations.DaaIsTheSingleCorrection := by
  intro s
  refine ⟨_, rfl, ⟨?_, ?_, ?_, ?_, daa8_cy_iff _ _, daa8_ac_iff _ _⟩, flagsOf_of_szp rfl rfl rfl, rfl, rfl,
    aluResult_spec s _ 1⟩
  · exact fun hlo hhi => daa8_value (.inl ⟨hlo, rfl⟩) (.inl ⟨hhi, rfl⟩) rfl
  · exact fun hlo hhi => daa8_value (.inl ⟨hlo, rfl⟩) (.inr ⟨hhi, rfl⟩) rfl
  · exact fun hlo hhi => daa8_value (.inr ⟨hlo, rfl⟩) (.inl ⟨hhi, rfl⟩) rfl
  · exact fun hlo hhi => (daa8_value (v := 0) (.inr ⟨hlo, rfl⟩) (.inr ⟨hhi, rfl⟩) rfl).trans (BitVec.add_zero _)

/-! ## Sums and differences without loss: the byte with CY as its 256 -/

theorem add8_exact (x y : Byte) (c : Bool) :
    256 * (add8 x y c).flags.cy.toNat + (add8 x y c).value.toNat = x.toNat + y.toNat + c.toNat := by
  have hx := x.isLt
  have hy := y.isLt
  have hc := c.toNat_le
  have hv : (add8 x y c).value.toNat = (x.toNat + y.toNat + c.toNat) % 256 := BitVec.toNat_ofNat _ _
  obtain ⟨-, hcy, -⟩ := add8_flags x y c
  rw [← Bool.toNat_eq_one] at hcy
  have hb := (add8 x y c).flags.cy.toNat_le
  omega

theorem sub8_exact (zn : Bool) (x y : Byte) (c : Bool) :
    (sub8 zn x y c).value.toNat + y.toNat + c.toNat = 256 * (sub8 zn x y c).flags.cy.toNat + x.toNat := by
  have hx := x.isLt
  have hy := y.isLt
  have hc := c.toNat_le
  have hv : (sub8 zn x y c).value.toNat = (((x.toNat : Int) - y.toNat - c.toNat) % 256).toNat := BitVec.toNat_ofInt _
  obtain ⟨-, hcy, -⟩ := sub8_flags zn x y c
  rw [← Bool.toNat_eq_one] at hcy
  have hb := (sub8 zn x y c).flags.cy.toNat_le
  omega

/-! ## Packed BCD (41 R163) -/

/-- DAA on the flags and the binary sum of packed-BCD bytes, `p` and `q` the sums of the high and of the low digits with
the carry in: it corrects the low digit exactly when `q` carries in decimal, the high digit exactly when `p` with that
carry does. -/
theorem daa8_bcd {f : Flags} {a : Byte} {p q : Nat} (hp : p < 19) (hq : q < 20)
    (hsum : 256 * f.cy.toNat + a.toNat = 16 * p + q) (hac : f.ac = true ↔ 16 ≤ q) :
    (daa8 f a).value.toNat = 16 * ((p + q / 10) % 10) + q % 10 ∧ (daa8 f a).flags.cy.toNat = (p + q / 10) / 10 := by
  have ha := a.isLt
  have hcy : f.cy = true ↔ 256 ≤ 16 * p + q := by
    rw [← Bool.toNat_eq_one]
    omega
  have hlow : DaaLow f a ↔ 10 ≤ q := by
    rw [DaaLow, hac]
    omega
  have hhigh : DaaHigh f a ↔ 10 ≤ p + q / 10 := by
    rw [DaaHigh, hcy]
    omega
  constructor
  · rw [daa8_value_toNat f a (lo := 6 * (q / 10)) (hi := 96 * ((p + q / 10) / 10)) (by rw [hlow]; omega)
      (by rw [hhigh]; omega)]
    omega
  · have hcy' := (daa8_cy_iff f a).trans hhigh
    rw [← Bool.toNat_eq_one] at hcy'
    have := (daa8 f a).flags.cy.toNat_le
    omega

/-- Settles O19: `daa8_bcd` with the sums of the high digits and of the low digits and the carry in. -/
theorem daaCorrectsPackedBcdAddition : Obligations.DaaCorrectsPackedBcdAddition := by
  intro s t u rs i c x1 x0 y1 y0 hx1 hx0 hy1 hy0 hx hy hi ht hu
  obtain ⟨cin, hadd, rfl⟩ : ∃ cin : Bool, exec i s = .next (s.aluResult (add8 s.regs.a (s.readReg rs) cin) 1) ∧
      c = cin.toNat := by
    obtain ⟨rfl, rfl⟩ | ⟨rfl, rfl⟩ := hi
    · exact ⟨false, rfl, rfl⟩
    · exact ⟨s.flags.cy, rfl, rfl⟩
  obtain rfl := Host.Outcome.next.inj (hadd.symm.trans ht)
  obtain rfl := Host.Outcome.next.inj hu
  have hc := cin.toNat_le
  have hsum := add8_exact s.regs.a (s.readReg rs) cin
  obtain ⟨-, -, hac⟩ := add8_flags s.regs.a (s.readReg rs) cin
  obtain ⟨hvalue, hcy⟩ := daa8_bcd (p := x1 + y1) (q := x0 + y0 + cin.toNat) (by omega) (by omega)
    (hsum.trans (by omega)) (hac.trans (by omega))
  exact ⟨_, _, Nat.mod_lt _ (by decide), Nat.mod_lt _ (by decide), hvalue, by
    rw [State.aluResult_flags, State.aluResult_flags, State.aluResult_regs, Regs.set_a, hcy]
    omega⟩

/-! ## Sixteen bits through CY (41 R163) -/

/-- `Add8` of the low bytes, then of the high bytes with the carry. -/
theorem add8_add8_join (x1 x0 y1 y0 : Byte) :
    join (add8 x1 y1 (add8 x0 y0 false).flags.cy).value (add8 x0 y0 false).value = join x1 x0 + join y1 y0 ∧
      ((add8 x1 y1 (add8 x0 y0 false).flags.cy).flags.cy = true ↔ 65536 ≤ (join x1 x0).toNat + (join y1 y0).toNat) := by
  have hlow := add8_exact x0 y0 false
  have hhigh := add8_exact x1 y1 (add8 x0 y0 false).flags.cy
  rw [Bool.toNat_false] at hlow
  generalize add8 x1 y1 (add8 x0 y0 false).flags.cy = r1 at *
  generalize add8 x0 y0 false = r0 at *
  have h1 := r1.value.isLt
  have h0 := r0.value.isLt
  constructor
  · apply BitVec.eq_of_toNat_eq
    simp only [BitVec.toNat_add, join_toNat]
    omega
  · rw [← Bool.toNat_eq_one, join_toNat, join_toNat]
    have hc := r1.flags.cy.toNat_le
    omega

/-- `Sub8` of the low bytes, then of the high bytes with the borrow. -/
theorem sub8_sub8_join (zn : Bool) (x1 x0 y1 y0 : Byte) :
    join (sub8 zn x1 y1 (sub8 zn x0 y0 false).flags.cy).value (sub8 zn x0 y0 false).value = join x1 x0 - join y1 y0 ∧
      ((sub8 zn x1 y1 (sub8 zn x0 y0 false).flags.cy).flags.cy = true ↔ (join x1 x0).toNat < (join y1 y0).toNat) := by
  have hlow := sub8_exact zn x0 y0 false
  have hhigh := sub8_exact zn x1 y1 (sub8 zn x0 y0 false).flags.cy
  rw [Bool.toNat_false] at hlow
  generalize sub8 zn x1 y1 (sub8 zn x0 y0 false).flags.cy = r1 at *
  generalize sub8 zn x0 y0 false = r0 at *
  have h1 := r1.value.isLt
  have h0 := r0.value.isLt
  have hc := r1.flags.cy.toNat_le
  constructor
  · apply BitVec.eq_of_toNat_eq
    simp only [BitVec.toNat_sub, join_toNat]
    omega
  · rw [← Bool.toNat_eq_one, join_toNat, join_toNat]
    omega

/-- Settles O20: the two steps are `add8_add8_join` and `sub8_sub8_join`. -/
theorem carryChainsGiveSixteenBitArithmetic : Obligations.CarryChainsGiveSixteenBitArithmetic := by
  intro s t u x1 y1 y0
  constructor
  · intro ht hu
    obtain rfl := Host.Outcome.next.inj ht
    obtain rfl := Host.Outcome.next.inj hu
    exact add8_add8_join x1 s.regs.a y1 y0
  · intro ht hu
    obtain rfl := Host.Outcome.next.inj ht
    obtain rfl := Host.Outcome.next.inj hu
    exact sub8_sub8_join s.params.acSubZeroNibble x1 s.regs.a y1 y0

end Sys2Proof.Machine
end

section
/-! PROOFS. The logical group (42_logical.md): settles O12, O13 and O21 to O23. -/

namespace Sys2Proof.Machine

/-! ## Compare and logic -/

/-- An instruction that keeps only the flags of `A - y`: a borrow is `A < y`, a zero difference is `A = y`. -/
theorem compares_of {i : Instr} {s : State} {y : Byte} {n : Nat}
    (h : exec i s = .next (s.compareResult (sub8 s.params.acSubZeroNibble s.regs.a y false) n)) : Compares i s y n := by
  have hf := sub8_flags s.params.acSubZeroNibble s.regs.a y false
  have ⟨⟨_, hz, _⟩, hcy, _⟩ := hf
  have hdiff : s.regs.a - y - BitVec.ofNat 8 false.toNat = 0 ↔ s.regs.a = y := by
    rw [Bool.toNat_false, BitVec.sub_zero, sub_eq_zero]
  exact ⟨_, h, hcy, hz.trans hdiff, hf, rfl, rfl, compareResult_spec s _ n⟩

/-- Settles O12: each meaning keeps the flags of `Sub8` alone. -/
theorem compareResults : Obligations.CompareResults :=
  fun _ => ⟨fun _ => compares_of rfl, compares_of rfl, fun _ => compares_of rfl⟩

/-- Settles O13: each meaning puts the bitwise result and the flags of `logic8` into the accumulator and the flags. -/
theorem logicResults : Obligations.LogicResults :=
  fun _ => ⟨fun _ => setsAccumulator_of rfl rfl (logic8_flags _ _), setsAccumulator_of rfl rfl (logic8_flags _ _),
    fun _ => setsAccumulator_of rfl rfl (logic8_flags _ _), fun _ => setsAccumulator_of rfl rfl (logic8_flags _ _),
    setsAccumulator_of rfl rfl (logic8_flags _ _), fun _ => setsAccumulator_of rfl rfl (logic8_flags _ _),
    fun _ => setsAccumulator_of rfl rfl (logic8_flags _ _), setsAccumulator_of rfl rfl (logic8_flags _ _),
    fun _ => setsAccumulator_of rfl rfl (logic8_flags _ _)⟩

/-! ## The rotated byte (42 R188 to R191) -/

/-- `r` is the byte `a` with every bit one place up and `fill` at D0, and the bit D7 that left. -/
def ShiftedUp (a : Byte) (fill : Bool) (r : Byte × Bool) : Prop :=
  r.1.getLsbD 0 = fill ∧ r.2 = a.getLsbD 7 ∧ ∀ k < 7, r.1.getLsbD (k + 1) = a.getLsbD k

/-- `r` is the byte `a` with every bit one place down and `fill` at D7, and the bit D0 that left. -/
def ShiftedDown (a : Byte) (fill : Bool) (r : Byte × Bool) : Prop :=
  r.1.getLsbD 7 = fill ∧ r.2 = a.getLsbD 0 ∧ ∀ k < 7, r.1.getLsbD k = a.getLsbD (k + 1)

/-- Doubling with a carry in appends the carry below D6 to D0. -/
theorem rotlCarry_byte (a : Byte) (c : Bool) : (rotlCarry a c).1 = (a.setWidth 7).concat c := by
  apply byte_ofNat_eq
  rw [BitVec.toNat_concat, BitVec.toNat_setWidth]
  have hc := c.toNat_le
  omega

/-- Halving with a carry in puts the carry above D7 to D1. -/
theorem rotrCarry_byte (a : Byte) (c : Bool) : (rotrCarry a c).1 = BitVec.cons c (a.extractLsb' 1 7) := by
  apply byte_ofNat_eq
  rw [BitVec.toNat_cons', BitVec.extractLsb'_toNat, Nat.shiftLeft_eq, Nat.shiftRight_eq_div_pow]
  have ha := a.isLt
  have hc := c.toNat_le
  omega

theorem rotlCarry_shiftedUp (a : Byte) (c : Bool) : ShiftedUp a c (rotlCarry a c) := by
  rw [ShiftedUp, rotlCarry_byte]
  refine ⟨BitVec.getLsbD_concat_zero, rfl, fun k hk => ?_⟩
  simp [BitVec.getLsbD_concat_succ, hk]

theorem rotrCarry_shiftedDown (a : Byte) (c : Bool) : ShiftedDown a c (rotrCarry a c) := by
  rw [ShiftedDown, rotrCarry_byte]
  refine ⟨(BitVec.getLsbD_cons ..).trans (if_pos rfl), rfl, fun k hk => ?_⟩
  simp [BitVec.getLsbD_cons, hk, hk.ne, Nat.add_comm]

/-- RLC is RAL with D7 for the carry. -/
theorem rotl_shiftedUp {a : Byte} {c : Bool} (h : a.getLsbD 7 = c) : ShiftedUp a c (rotl a) := by
  rw [← h]
  exact rotlCarry_shiftedUp a (a.getLsbD 7)

/-- RRC is RAR with D0 for the carry. -/
theorem rotr_shiftedDown {a : Byte} {c : Bool} (h : a.getLsbD 0 = c) : ShiftedDown a c (rotr a) := by
  rw [← h]
  exact rotrCarry_shiftedDown a (a.getLsbD 0)

/-- A shift down that takes in the bit a shift up let out gives back the byte and the bit taken in. -/
theorem ShiftedUp.undo {a : Byte} {c : Bool} {r q : Byte × Bool} (hr : ShiftedUp a c r) (hq : ShiftedDown r.1 r.2 q) :
    q = (a, c) := by
  obtain ⟨hin, hout, hbits⟩ := hr
  obtain ⟨hin', hout', hbits'⟩ := hq
  refine Prod.ext (BitVec.eq_of_getLsbD_eq fun k hk => ?_) (hout'.trans hin)
  obtain hk | rfl : k < 7 ∨ k = 7 := by omega
  · exact (hbits' k hk).trans (hbits k hk)
  · exact hin'.trans hout

/-- A shift up that takes in the bit a shift down let out gives back the byte and the bit taken in. -/
theorem ShiftedDown.undo {a : Byte} {c : Bool} {r q : Byte × Bool} (hr : ShiftedDown a c r) (hq : ShiftedUp r.1 r.2 q) :
    q = (a, c) := by
  obtain ⟨hin, hout, hbits⟩ := hr
  obtain ⟨hin', hout', hbits'⟩ := hq
  refine Prod.ext (BitVec.eq_of_getLsbD_eq fun k hk => ?_) (hout'.trans hin)
  cases k with
  | zero => exact hin'.trans hout
  | succ k => exact (hbits' k (by omega)).trans (hbits k (by omega))

/-- RRC after RLC. -/
theorem rotr_rotl (a : Byte) : (rotr (rotl a).1).1 = a := by
  have hl : ShiftedUp a (rotl a).2 (rotl a) := rotl_shiftedUp rfl
  have ⟨hin, _⟩ := hl
  exact congrArg Prod.fst (hl.undo (rotr_shiftedDown hin))

/-- RLC after RRC. -/
theorem rotl_rotr (a : Byte) : (rotl (rotr a).1).1 = a := by
  have hr : ShiftedDown a (rotr a).2 (rotr a) := rotr_shiftedDown rfl
  have ⟨hin, _⟩ := hr
  exact congrArg Prod.fst (hr.undo (rotl_shiftedUp hin))

theorem rotrCarry_rotlCarry (a : Byte) (c : Bool) : rotrCarry (rotlCarry a c).1 (rotlCarry a c).2 = (a, c) :=
  (rotlCarry_shiftedUp a c).undo (rotrCarry_shiftedDown _ _)

theorem rotlCarry_rotrCarry (a : Byte) (c : Bool) : rotlCarry (rotrCarry a c).1 (rotrCarry a c).2 = (a, c) :=
  (rotrCarry_shiftedDown a c).undo (rotlCarry_shiftedUp _ _)

/-! ## The rotates -/

/-- An instruction that ends in `rotateResult` of a byte shifted up (`up`) or down: A, CY and PC, and nothing else. -/
theorem rotates_of {i : Instr} {s : State} {up fill : Bool} {r : Byte × Bool}
    (h : exec i s = .next (s.rotateResult r)) (hup : up = true → ShiftedUp s.regs.a fill r)
    (hdown : up = false → ShiftedDown s.regs.a fill r) :
    ∃ t, exec i s = .next t ∧
      (up = true → t.regs.a.getLsbD 0 = fill ∧ t.flags.cy = s.regs.a.getLsbD 7 ∧
        ∀ k < 7, t.regs.a.getLsbD (k + 1) = s.regs.a.getLsbD k) ∧
      (up = false → t.regs.a.getLsbD 7 = fill ∧ t.flags.cy = s.regs.a.getLsbD 0 ∧
        ∀ k < 7, t.regs.a.getLsbD k = s.regs.a.getLsbD (k + 1)) ∧
      t.flags.s = s.flags.s ∧ t.flags.z = s.flags.z ∧ t.flags.ac = s.flags.ac ∧ t.flags.p = s.flags.p ∧
      t.sp = s.sp ∧ t.pc = s.pc + 1 ∧ Keeps [.a] [] s t :=
  ⟨_, h, hup, hdown, rfl, rfl, rfl, rfl, rfl, rfl, rotateResult_spec s r⟩

/-- Settles O21: RLC and RAL shift up, RRC and RAR down. -/
theorem rotateResults : Obligations.RotateResults := by
  intro s x hx
  simp only [List.mem_cons, List.not_mem_nil, or_false] at hx
  obtain rfl | rfl | rfl | rfl := hx
  · exact rotates_of rfl (fun _ => rotl_shiftedUp rfl) nofun
  · exact rotates_of rfl (fun _ => rotlCarry_shiftedUp _ _) nofun
  · exact rotates_of rfl nofun fun _ => rotr_shiftedDown rfl
  · exact rotates_of rfl nofun fun _ => rotrCarry_shiftedDown _ _

/-- A second rotate that gives A its first value gives back all the registers. -/
theorem State.rotateResult_twice_regs {s : State} {q : Byte × Bool} (r : Byte × Bool) (h : q.1 = s.regs.a) :
    ((s.rotateResult r).rotateResult q).regs = s.regs := by
  rw [State.rotateResult_regs, State.rotateResult_regs, h]
  rfl

/-- A second rotate that gives A and CY their first values gives back all the registers and flags. -/
theorem State.rotateResult_twice {s : State} {q : Byte × Bool} (r : Byte × Bool) (h : q = (s.regs.a, s.flags.cy)) :
    ((s.rotateResult r).rotateResult q).regs = s.regs ∧ ((s.rotateResult r).rotateResult q).flags = s.flags :=
  ⟨State.rotateResult_twice_regs r (congrArg Prod.fst h), by rw [h]; rfl⟩

/-- Settles O22: in each pair the second rotate takes in, at the other end, the bit the first let out. -/
theorem rotatesUndoEachOther : Obligations.RotatesUndoEachOther := by
  intro s t u
  refine ⟨fun ht hu => ?_, fun ht hu => ?_, fun ht hu => ?_, fun ht hu => ?_⟩ <;>
    obtain rfl := Host.Outcome.next.inj ht <;>
    obtain rfl := Host.Outcome.next.inj hu
  · exact State.rotateResult_twice _ (rotrCarry_rotlCarry s.regs.a s.flags.cy)
  · exact State.rotateResult_twice _ (rotlCarry_rotrCarry s.regs.a s.flags.cy)
  · exact State.rotateResult_twice_regs _ (rotr_rotl s.regs.a)
  · exact State.rotateResult_twice_regs _ (rotl_rotr s.regs.a)

/-! ## Complement and carry -/

/-- An instruction that ends in a new CY: CY and PC, and nothing else. -/
theorem setsCarry_of {i : Instr} {s : State} {c : Bool}
    (h : exec i s = .next ((s.withFlags (s.flags.withCy c)).advance 1)) :
    ∃ t, exec i s = .next t ∧ t.flags.cy = c ∧ t.flags.s = s.flags.s ∧ t.flags.z = s.flags.z ∧
      t.flags.ac = s.flags.ac ∧ t.flags.p = s.flags.p ∧ t.sp = s.sp ∧ t.pc = s.pc + 1 ∧ Keeps [] [] s t :=
  ⟨_, h, rfl, rfl, rfl, rfl, rfl, rfl, rfl,
    keeps_of_fields (fun _ _ => rfl) rfl rfl rfl rfl ⟨rfl, rfl, rfl, rfl⟩⟩

/-- CMA: the complement is `FFH - A`. -/
theorem exec_cma (s : State) : exec .cma s = .next ((s.writeReg .a (0xFF#8 - s.regs.a)).advance 1) := by
  rw [show 0xFF#8 - s.regs.a = ~~~s.regs.a from BitVec.allOnes_sub_eq_not s.regs.a]
  rfl

/-- Settles O23: CMA ends in one register write, CMC and STC in a new CY. -/
theorem complementAndCarryResults : Obligations.ComplementAndCarryResults := by
  intro s
  simp only [List.forall_mem_cons]
  exact ⟨loadsReg_of (exec_cma s), setsCarry_of rfl, setsCarry_of rfl, nofun⟩

end Sys2Proof.Machine
end

section
/-! PROOFS. The branch group (43_branch.md): settles O24 to O28. -/

namespace Sys2Proof.Machine

/-! ## The conditions (43 R201) -/

/-- The first bytes of the conditional returns, jumps and calls hold the code of their condition in op[5:3], in the order of
30_encoding.md R86. -/
theorem formOf_condCode {code : Nat} {cc : Cond}
    (h : [Cond.nz, .z, .nc, .c, .po, .pe, .p, .m][code]? = some cc) :
    formOf (BitVec.ofNat 8 (0xC2 + 8 * code)) = .three (condJump cc) ∧
    formOf (BitVec.ofNat 8 (0xC4 + 8 * code)) = .three (condCall cc) ∧
    formOf (BitVec.ofNat 8 (0xC0 + 8 * code)) = .one (condReturn cc) := by
  obtain ⟨hcode, rfl⟩ := List.getElem?_eq_some_iff.1 h
  change code < 8 at hcode
  interval_cases code <;> exact ⟨rfl, rfl, rfl⟩

/-- AC is tested by no condition. -/
theorem Flags.cond_withAc (f : Flags) (ac : Bool) (cc : Cond) : { f with ac := ac }.cond cc = f.cond cc := by
  cases cc <;> rfl

/-- Settles O24: a condition is its flag or the negation of it, and the form of each first byte names the condition. -/
theorem conditionsTestTheirFlag : Obligations.ConditionsTestTheirFlag := by
  have hnot (b : Bool) : (!b) = true ↔ b = false := (Bool.not_eq_true' b).to_iff
  refine fun f => ⟨hnot f.z, .rfl, hnot f.cy, .rfl, hnot f.p, .rfl, hnot f.s, .rfl, f.cond_withAc,
    fun code cc h b2 b3 => ?_⟩
  obtain ⟨hjump, hcall, hreturn⟩ := formOf_condCode h
  simp only [instrOf, hjump, hcall, hreturn, Form.instr, and_self]

/-! ## Jumps -/

/-- A conditional jump is a jump to one of two addresses. -/
theorem State.jumpIf_eq_withPc (s : State) (cc : Cond) (a : Word) :
    s.jumpIf cc a = s.withPc (if s.flags.cond cc then a else s.pc + 3) := by
  unfold State.jumpIf
  split <;> rfl

/-- Settles O25: each meaning writes PC alone. -/
theorem jumpResults : Obligations.JumpResults :=
  fun s a => ⟨jumpsTo_of rfl, jumpsTo_of rfl,
    fun cc => jumpsTo_of ((exec_condJump cc a s).trans (congrArg _ (s.jumpIf_eq_withPc cc a)))⟩

/-! ## Calls and returns, taken and untaken -/

theorem exec_condCall_taken {s : State} {cc : Cond} (h : s.flags.cond cc = true) (a : Word) :
    exec (condCall cc a) s = .next (s.callTo a (s.pc + 3)) :=
  (exec_condCall cc a s).trans (congrArg _ (if_pos h))

theorem exec_condCall_untaken {s : State} {cc : Cond} (h : s.flags.cond cc = false) (a : Word) :
    exec (condCall cc a) s = .next (s.withPc (s.pc + 3)) :=
  (exec_condCall cc a s).trans (congrArg _ (jumpIf_callIf_untaken h a).2)

theorem exec_condReturn_taken {s : State} {cc : Cond} (h : s.flags.cond cc = true) :
    exec (condReturn cc) s = .next s.returnFrom :=
  (exec_condReturn cc s).trans (congrArg _ (if_pos h))

theorem exec_condReturn_untaken {s : State} {cc : Cond} (h : s.flags.cond cc = false) :
    exec (condReturn cc) s = .next (s.withPc (s.pc + 1)) :=
  (exec_condReturn cc s).trans (congrArg _ (if_neg (ne_true_of_eq_false h)))

/-- Settles O26: a call is `State.callTo` with the address after it, an untaken one a jump over its three bytes. -/
theorem callResults : Obligations.CallResults :=
  fun _ a => ⟨callsTo_of rfl, fun _ _ => callsTo_of rfl, fun _ h => callsTo_of (exec_condCall_taken h a),
    fun _ h => jumpsTo_of (exec_condCall_untaken h a)⟩

/-- Settles O27: a return is `State.returnFrom`, an untaken one a jump over its one byte. -/
theorem returnResults : Obligations.ReturnResults :=
  fun _ => ⟨returns_of rfl, fun _ h => returns_of (exec_condReturn_taken h),
    fun _ h => jumpsTo_of (exec_condReturn_untaken h)⟩

/-! ## RET after CALL or RST (43 R231) -/

/-- On a stack in RAM the return address of a call is what the return pops. -/
theorem State.top16_callTo {s : State} (h1 : s.regionAt (s.sp - 1) = .ram) (h2 : s.regionAt (s.sp - 2) = .ram)
    (target ret : Word) : (s.callTo target ret).top16 = ret :=
  State.top16_of_pushed h1 h2 rfl rfl rfl

theorem State.returnFrom_callTo_sp (s : State) (target ret : Word) : (s.callTo target ret).returnFrom.sp = s.sp :=
  BitVec.sub_add_cancel s.sp 2

/-- CALL and RST push the address after their `n` bytes. -/
theorem exec_call_or_rst {i : Instr} {n : Nat} (h : (∃ a, i = .call a ∧ n = 3) ∨ (∃ k, i = .rst k ∧ n = 1))
    (s : State) : ∃ target, exec i s = .next (s.callTo target (s.nextPc n)) := by
  obtain ⟨a, rfl, rfl⟩ | ⟨k, rfl, rfl⟩ := h
  · exact ⟨a, rfl⟩
  · exact ⟨restartAddress k, rfl⟩

/-- Settles O28: the return pops the address that the call pushed and raises SP by the 2 that the call lowered it. -/
theorem returnUndoesCall : Obligations.ReturnUndoesCall := by
  intro s t u i n h1 h2 hi ht hu
  obtain ⟨target, he⟩ := exec_call_or_rst hi s
  obtain rfl := Host.Outcome.next.inj (he.symm.trans ht)
  obtain rfl := Host.Outcome.next.inj hu
  exact ⟨State.top16_callTo h1 h2 target _, s.returnFrom_callTo_sp target _, rfl, rfl, rfl⟩

end Sys2Proof.Machine
end

section
/-! PROOFS. The stack, I/O and machine control group (44_stack_io_control.md), but for SIM: settles O29 to O38. -/

namespace Sys2Proof.Machine

/-! ## Pushes (44 R241, R242) -/

/-- An instruction of one byte that ends in `Push16`. -/
theorem pushes_of {i : Instr} {s : State} {w : Word} (h : exec i s = .next ((s.push16 w).advance 1)) :
    ∃ t, exec i s = .next t ∧ Pushed s t w ∧ t.flags = s.flags ∧ t.pc = s.pc + 1 ∧
      Keeps [] [s.sp - 1, s.sp - 2] s t :=
  ⟨_, h, pushed_of (fun _ => rfl) rfl, rfl, rfl, fun _ _ => rfl, keepsBytes_of_push16 fun _ => rfl, ⟨rfl, rfl, rfl⟩,
    ⟨rfl, rfl, rfl, rfl⟩⟩

/-- Settles O29: PUSH is `Push16` of the pair, whose high-order register comes first (10_state.md R23). -/
theorem pushPairResults : Obligations.PushPairResults := by
  intro s
  simp only [List.forall_mem_cons]
  exact ⟨pushes_of rfl, pushes_of rfl, pushes_of rfl, nofun⟩

theorem State.unusedBits_of_fixed {s : State} {u : BitVec 3} (h : s.params.flagUnused = some u) : s.unusedBits = u := by
  simp only [State.unusedBits, h]

/-- Settles O30: PUSH PSW is `Push16` of A and the flag byte, whose bits stand where 10 R30 puts them. -/
theorem pushPswResults : Obligations.PushPswResults := by
  intro s
  obtain ⟨hs, hz, h5, hac, h3, hp, h1, hcy⟩ := flags_toByte_bits s.flags s.unusedBits
  obtain ⟨t, he, hpushed, hrest⟩ :=
    pushes_of (i := .pushPsw) (s := s) (w := join s.regs.a (s.flags.toByte s.unusedBits)) rfl
  refine ⟨t, _, he, hpushed, hs, hz, hac, hp, hcy, fun u hu => ?_, hrest⟩
  rw [← State.unusedBits_of_fixed hu]
  exact ⟨h5, h3, h1⟩

/-! ## Pops (44 R243, R244) -/

theorem State.high_top16 (s : State) : high s.top16 = s.readByte (s.sp + 1) := high_join _ _

theorem State.low_top16 (s : State) : low s.top16 = s.readByte s.sp := low_join _ _

/-- A pair of two registers takes the high-order byte in the first and the low-order byte in the second. -/
theorem State.readReg_writePair {p : Pair} {rh rl : Reg} (hp : pairRegs p = [rh, rl]) (s : State) (w : Word) :
    (s.writePair p w).readReg rh = high w ∧ (s.writePair p w).readReg rl = low w := by
  cases p with
  | bc | de | hl => cases hp; exact ⟨rfl, rfl⟩
  | sp => cases hp

/-- POP of a pair of two registers, the high-order one first. -/
theorem popRp_loads_pair {p : Pair} {rh rl : Reg} (s : State) (hp : pairRegs p = [rh, rl]) :
    ∃ t, exec (.popRp p) s = .next t ∧ t.readReg rl = s.readByte s.sp ∧ t.readReg rh = s.readByte (s.sp + 1) ∧
      t.sp = s.sp + 2 ∧ t.flags = s.flags ∧ t.pc = s.pc + 1 ∧ Keeps [rh, rl] [] s t := by
  have hsp : (p == .sp) = false := beq_false_of_ne (by rintro rfl; cases hp)
  obtain ⟨hhigh, hlow⟩ := State.readReg_writePair hp s.drop16 s.top16
  have hregs : regsWritten (.popRp p) ⊆ [rh, rl] := hp ▸ List.Subset.refl _
  exact ⟨_, rfl, hlow.trans s.low_top16, hhigh.trans s.high_top16, State.writePair_sp_of_ne hsp _ _,
    State.writePair_flags _ _ _, congrArg (· + 1) (State.writePair_pc _ _ _),
    keeps_of_exec (i := .popRp p) rfl hregs (List.nil_subset _)⟩

theorem exec_popPsw (s : State) :
    exec .popPsw s =
      .next (((s.drop16.writeReg .a (s.readByte (s.sp + 1))).withFlags
        (Flags.ofByte (s.readByte s.sp))).advance 1) := by
  rw [← s.high_top16, ← s.low_top16]
  rfl

/-- Settles O31: POP writes the pair with the value of `Pop16`, POP PSW splits that value into A and the flags. -/
theorem popResults : Obligations.PopResults := by
  intro s
  constructor
  · simp only [List.forall_mem_cons]
    exact ⟨popRp_loads_pair s rfl, popRp_loads_pair s rfl, popRp_loads_pair s rfl, nofun⟩
  · exact ⟨_, exec_popPsw s, rfl, rfl, rfl, rfl, rfl, rfl, rfl, rfl,
      keeps_of_exec (exec_popPsw s) (List.Subset.refl _) (List.nil_subset _)⟩

/-! ## POP after PUSH -/

theorem Pair.ne_sp_of_stacked {p : Pair} (h : p.stacked = true) : (p == .sp) = false := by
  cases p with
  | bc | de | hl => rfl
  | sp => cases h

/-- Raising SP by 2 undoes the lowering by 2 of `Push16`. -/
theorem State.sp_add_two_of_pushed {s m : State} (h : m.sp = s.sp - 2) : m.sp + 2 = s.sp :=
  (congrArg (· + 2) h).trans (BitVec.sub_add_cancel s.sp 2)

/-- Settles O32: the pop finds the pushed word on the stack, and raises SP by the 2 that the push lowered it. -/
theorem popUndoesPush : Obligations.PopUndoesPush := by
  intro s t m u h1 h2 hsp e1 e2
  constructor
  · intro ht hu
    obtain rfl := Host.Outcome.next.inj ht
    obtain rfl := Host.Outcome.next.inj hu
    have htop : m.top16 = join s.regs.a (s.flags.toByte s.unusedBits) := State.top16_of_pushed h1 h2 hsp e1 e2
    refine ⟨?_, ?_, ?_⟩
    · exact (congrArg high htop).trans (high_join _ _)
    · calc Flags.ofByte (low m.top16)
        _ = Flags.ofByte (s.flags.toByte s.unusedBits) := by rw [htop, low_join]
        _ = s.flags := Flags.ofByte_toByte _ _
    · exact State.sp_add_two_of_pushed hsp
  · intro p hp ht hu
    obtain rfl := Host.Outcome.next.inj ht
    obtain rfl := Host.Outcome.next.inj hu
    have htop : m.top16 = s.readPair p := State.top16_of_pushed h1 h2 hsp e1 e2
    constructor
    · rw [State.advance_readPair, State.readPair_writePair, htop]
    · exact (State.writePair_sp_of_ne (Pair.ne_sp_of_stacked hp) _ _).trans (State.sp_add_two_of_pushed hsp)

/-! ## XTHL and SPHL (44 R245, R246) -/

theorem exec_xthl (s : State) :
    exec .xthl s =
      .next (((((s.writeByte (s.sp + 1) s.regs.h).writeByte s.sp s.regs.l).writeReg .h (s.readByte (s.sp + 1))).writeReg
        .l (s.readByte s.sp)).advance 1) := by
  rw [← s.high_top16, ← s.low_top16]
  rfl

/-- Settles O33: XTHL stores two bytes whose addresses never coincide and writes H and L, SPHL writes SP. -/
theorem xthlAndSphlResults : Obligations.XthlAndSphlResults := by
  intro s
  constructor
  · exact ⟨_, exec_xthl s, rfl, rfl,
      fun hr => State.readByte_writeByte_writeByte_second hr s.regs.h s.regs.l,
      fun hr => State.readByte_writeByte_writeByte_first (add_one_ne_self s.sp) hr s.regs.h s.regs.l,
      fun hr => State.readByte_writeByte_writeByte_not_ram hr (s.sp + 1) s.sp s.regs.h s.regs.l,
      fun hr => State.readByte_writeByte_writeByte_not_ram hr (s.sp + 1) s.sp s.regs.h s.regs.l,
      rfl, rfl, rfl, keeps_of_exec (exec_xthl s) (List.Subset.refl _) (List.Perm.swap s.sp (s.sp + 1) []).subset⟩
  · exact ⟨_, rfl, rfl, rfl, rfl, keeps_of_exec (i := .sphl) rfl (List.Subset.refl _) (List.nil_subset _)⟩

/-! ## IN and OUT (44 R250, R251) -/

/-- The first pair that the environment lists for a port counts (entry 7). -/
theorem State.portIn_of_listed {s : State} {port w : Byte} {l r : List (Byte × Byte)}
    (h : s.inputs.ports = l ++ (port, w) :: r) (hl : ∀ x ∈ l, x.1 ≠ port) : s.portIn port = w := by
  have hnone : l.find? (fun x => x.1 == port) = none := by simpa [List.find?_eq_none] using hl
  simp [State.portIn, h, List.find?_append, hnone]

/-- Settles O34: IN loads what the port presents, OUT makes its one event. -/
theorem inAndOutResults : Obligations.InAndOutResults :=
  fun s port => ⟨⟨s.portIn port, fun _ _ _ => State.portIn_of_listed, loadsReg_of rfl⟩,
    _, rfl, rfl, rfl, rfl, rfl, rfl, rfl, fun _ _ => rfl, fun _ _ => rfl, rfl, rfl, rfl, rfl⟩

/-! ## EI, DI, NOP, HLT (44 R255, R256, R260, R262) -/

/-- An instruction of one byte that writes only the control flip-flops. -/
theorem setsControl_of {i : Instr} {s : State} {c : Control} (h : exec i s = .next ((s.withCtl c).advance 1)) :
    ∃ t, exec i s = .next t ∧ t.ctl = c ∧ t.flags = s.flags ∧ t.sp = s.sp ∧ t.pc = s.pc + 1 ∧
      t.outTrace = s.outTrace ∧ t.sodTrace = s.sodTrace ∧ KeepsRegs [] s t ∧ KeepsBytes [] s t ∧ KeepsWorld s t :=
  ⟨_, h, rfl, rfl, rfl, rfl, rfl, rfl, fun _ _ => rfl, fun _ _ => rfl, rfl, rfl, rfl, rfl⟩

/-- Settles O35: EI and DI write IE, and EI writes EI_shadow by `EI_DELAY` (60_exceptions.md R285). -/
theorem eiAndDiResults : Obligations.EiAndDiResults := by
  refine fun s => ⟨?_, setsControl_of rfl⟩
  obtain ⟨hset, hreset⟩ := s.afterEi_eiShadow
  obtain ⟨t, he, hctl, hrest⟩ := setsControl_of (i := .ei) (s := s) (c := s.afterEi) rfl
  exact ⟨t, s.afterEi.eiShadow, he, hctl, fun hd => Bool.eq_false_iff.2 fun hsh => hset hsh hd,
    fun hd => Bool.ne_false_iff.1 fun hsh => hreset hsh hd, hrest⟩

/-- Settles O36: NOP is a jump to the next address, HLT sets its flip-flop. -/
theorem nopAndHltResults : Obligations.NopAndHltResults :=
  fun _ => ⟨jumpsTo_of rfl, setsControl_of rfl⟩

/-! ## RIM (44 R263) -/

/-- The byte RIM loads has at bit 7 - k the bit that the layout names at its position k, D7 first. -/
theorem State.rimByte_bit {s : State} {k : Nat} {b : Config.RimBit} (h : s.params.rimLayout.toList[k]? = some b) :
    s.rimByte.getLsbD (7 - k) = s.rimBit b := by
  obtain ⟨hk, rfl⟩ := List.getElem?_eq_some_iff.1 h
  change k < 8 at hk
  rw [State.rimByte, byteOfBits_bits]
  interval_cases k <;> rfl

/-- Settles O38: A is loaded with `State.rimByte`. -/
theorem rimFollowsItsLayout : Obligations.RimFollowsItsLayout :=
  fun s => ⟨s.rimByte, loadsReg_of rfl, fun _ _ => State.rimByte_bit⟩

/-- Settles O37: the eight positions of the default layout. -/
theorem rimResults : Obligations.RimResults := by
  intro s hs
  have hbit {k : Nat} {b : Config.RimBit} (h : Config.RimLayout.spec.toList[k]? = some b) :
      s.rimByte.getLsbD (7 - k) = s.rimBit b := State.rimByte_bit (hs ▸ h)
  exact ⟨s.rimByte, loadsReg_of rfl, hbit (k := 0) rfl, hbit (k := 1) rfl, hbit (k := 2) rfl, hbit (k := 3) rfl,
    hbit (k := 4) rfl, hbit (k := 5) rfl, hbit (k := 6) rfl, hbit (k := 7) rfl⟩

end Sys2Proof.Machine
end

section
/-! PROOFS. Acceptance of an interrupt, entry to it, and that every defined instruction completes (60_exceptions.md): settles
O42, O43, O44, O45, O46 and O55. -/

namespace Sys2Proof.Machine

open Config (IntSource)

/-! ## Completion (60 R270) -/

/-- Settles O55: all but the ten undefined first bytes have a meaning that answers a next state. -/
theorem everyDefinedInstructionCompletes : Obligations.EveryDefinedInstructionCompletes := by
  intro i s hi
  cases i with
  | undefined08 | undefined10 | undefined18 | undefined28 | undefined38 | undefinedCB | undefinedD9 | undefinedDD
  | undefinedED | undefinedFD =>
    simp [isDefined, undefinedOpcodes] at hi
  | _ => exact ⟨_, rfl⟩

/-! ## Which requests are effective (60 R274) -/

theorem State.effective_trap (s : State) : s.effective .trap = true ↔ s.inputs.trapReq = true := Iff.rfl

theorem State.effective_rst75 (s : State) :
    s.effective .rst75 = true ↔ s.ctl.ff75 = true ∧ s.ctl.ie = true ∧ s.ctl.m75 = false := by
  simp [State.effective, and_assoc]

theorem State.effective_rst65 (s : State) :
    s.effective .rst65 = true ↔ s.inputs.i65Req = true ∧ s.ctl.ie = true ∧ s.ctl.m65 = false := by
  simp [State.effective, and_assoc]

theorem State.effective_rst55 (s : State) :
    s.effective .rst55 = true ↔ s.inputs.i55Req = true ∧ s.ctl.ie = true ∧ s.ctl.m55 = false := by
  simp [State.effective, and_assoc]

theorem State.effective_external (s : State) :
    s.effective .external = true ↔ (∃ op, s.inputs.extOp = some op) ∧ s.ctl.ie = true := by
  simp [State.effective, Option.isSome_iff_exists]

/-- A candidate is an effective source, and TRAP while EI_shadow is 1. -/
theorem State.candidate_iff {s : State} {src : IntSource} :
    s.candidate src = true ↔ s.effective src = true ∧ (s.ctl.eiShadow = false ∨ src = .trap) := by
  simp [State.candidate, or_comm]

/-- Settles O44: what is accepted is a candidate. -/
theorem acceptedInterruptsAreEnabled : Obligations.AcceptedInterruptsAreEnabled := by
  intro s src ha
  obtain ⟨he, hs⟩ := State.candidate_iff.1 (State.accepted_candidate ha)
  refine ⟨?_, ?_, ?_, ?_, ?_, fun hsh => hs.resolve_left (by simp [hsh])⟩
  · rintro rfl
    exact s.effective_trap.1 he
  · rintro rfl
    exact s.effective_rst75.1 he
  · rintro rfl
    exact s.effective_rst65.1 he
  · rintro rfl
    exact s.effective_rst55.1 he
  · rintro rfl
    exact s.effective_external.1 he

/-! ## Which candidate is accepted (60 R276, R277) -/

/-- An order of the five sources leaves none out. -/
theorem mem_priority_of_wf {p : Config.Params} (h : p.wf) (src : IntSource) : src ∈ p.priority := by
  obtain ⟨-, hnodup, hlength⟩ := h
  have hsub : p.priority ⊆ [.trap, .rst75, .rst65, .rst55, .external] := fun x _ => by cases x <;> simp
  have hperm := (hnodup.subperm hsub).perm_of_length_le hlength.ge
  exact hperm.mem_iff.2 (by cases src <;> simp)

/-- Where there is a candidate, one that no candidate precedes in the order of priority is accepted. -/
theorem State.accepted_le_candidate {s : State} {src : IntSource} (hm : src ∈ s.params.priority)
    (hc : s.candidate src = true) :
    ∃ best, s.accepted = some best ∧ s.params.priority.idxOf best ≤ s.params.priority.idxOf src := by
  obtain ⟨best, ha⟩ := Option.isSome_iff_exists.1 (List.find?_isSome.2 ⟨src, hm, hc⟩)
  obtain ⟨hbest, before, after, hp, hnone⟩ := List.find?_eq_some_iff_append.1 ha
  have hnot {x : IntSource} (hx : s.candidate x = true) : x ∉ before := fun hxb => by simpa [hx] using hnone x hxb
  refine ⟨best, ha, ?_⟩
  rw [hp, List.idxOf_append_of_notMem (hnot hbest), List.idxOf_append_of_notMem (hnot hc), List.idxOf_cons_self]
  omega

/-- A candidate that is first in priority is accepted. -/
theorem State.accepted_of_head {s : State} {src : IntSource} (hp : s.params.priority.head? = some src)
    (hc : s.candidate src = true) : s.accepted = some src := by
  obtain ⟨l, hl⟩ := List.head?_eq_some_iff.1 hp
  rw [State.accepted, hl, List.find?_cons_of_pos hc]

/-- Settles O45: the effective source is a candidate, and the accepted one decides the step. -/
theorem effectiveRequestsAreTaken : Obligations.EffectiveRequestsAreTaken := by
  intro s src hw hr he hs
  have hc : s.sample.candidate src = true := State.candidate_iff.2 ⟨he, hs⟩
  obtain ⟨best, ha, hle⟩ := State.accepted_le_candidate (s := s.sample) (mem_priority_of_wf hw src) hc
  exact ⟨best, State.accepted_effective ha, hle, fun hcut => step_enter (State.boundary_enter hr hcut ha),
    fun _ hcut => step_resetInEntry (State.boundary_resetInEntry hr hcut ha)⟩

/-! ## Entry (60 R278 to R280) -/

/-- From `s` to `t` an interrupt is entered at `v`: PC is pushed, the control flip-flops become `c`, and nothing else
changes. -/
def EnteredAt (s t : State) (v : Word) (c : Control) : Prop :=
  t.pc = v ∧ Pushed s.sample t s.pc ∧ t.ctl = c ∧ t.regs = s.regs ∧ t.flags = s.flags ∧
    KeepsBytes [s.sp - 1, s.sp - 2] s t ∧ t.outTrace = s.outTrace ∧ t.sodTrace = s.sodTrace ∧ t.draws = s.draws ∧
    t.params = s.params

theorem State.enter_keepsBytes (s : State) (v : Word) : KeepsBytes [s.sp - 1, s.sp - 2] s (s.enter v) :=
  keepsBytes_of_push16 (s.enter_readByte v)

/-- The one operation of every entry, from the boundary on and with the control flip-flops `c` served. -/
theorem State.enter_enteredAt (s : State) (c : Control) (v : Word) :
    EnteredAt s ((s.sample.withCtl c).enter v) v c.acknowledged :=
  ⟨rfl, (s.sample.withCtl c).enter_pushed v, rfl, by simp, by simp, (s.sample.withCtl c).enter_keepsBytes v,
    by simp, by simp, by simp, by simp⟩

section
variable {s : State} {src : IntSource}

/-- A step that accepts a source with a restart address of its own enters there. -/
theorem step_enters_internal {v : Word} (hr : s.nextInputs.reset = false) (hc : s.nextInputs.cut = none)
    (ha : s.sample.accepted = some src) (hv : vectorOf src = some v) :
    ∃ t, step s = .next t ∧ EnteredAt s t v (s.sample.ctl.served src).acknowledged :=
  ⟨_, (step_enter (State.boundary_enter hr hc ha)).trans (State.entry_internal hv), s.enter_enteredAt _ v⟩

/-- A step that accepts the external request with an RST byte enters at that byte's address. -/
theorem step_enters_external {op : Byte} {v : Word} (hr : s.nextInputs.reset = false) (hc : s.nextInputs.cut = none)
    (ha : s.sample.accepted = some .external) (hop : s.nextInputs.extOp = some op) (hv : insertedVector op = some v) :
    ∃ t, step s = .next t ∧ EnteredAt s t v s.sample.ctl.acknowledged :=
  ⟨_, (step_enter (State.boundary_enter hr hc ha)).trans
    ((State.entry_external hop).trans (State.enterInserted_some hv)), s.enter_enteredAt s.sample.ctl v⟩

/-- A reset inside an entry does not spare its refusal (entry 26). -/
theorem State.resetInEntry_refused {r : Refusal} (h : s.entry src = .refused r) (c : Cut) :
    s.resetInEntry src c = .refused r := by
  simp only [State.resetInEntry, h]

/-- Where an entry is accepted that is refused, the step is that refusal, cut short or not. -/
theorem step_refused_of_entry {r : Refusal} (hr : s.nextInputs.reset = false) (ha : s.sample.accepted = some src)
    (h : s.sample.entry src = .refused r) : step s = .refused r := by
  cases hc : s.nextInputs.cut with
  | none => exact (step_enter (State.boundary_enter hr hc ha)).trans h
  | some c =>
    exact (step_resetInEntry (State.boundary_resetInEntry hr hc ha)).trans (State.resetInEntry_refused h c)

end

/-- Settles O42: the four sources have the restart addresses of R272. -/
theorem internalInterruptEntry : Obligations.InternalInterruptEntry := by
  intro s x hx hr hc ha
  have hv : vectorOf x.1 = some x.2 := by fin_cases hx <;> rfl
  exact step_enters_internal hr hc ha hv

/-- The byte of RST n inserts the restart address 8 * n. -/
theorem insertedVector_rst :
    ∀ n < 8, insertedVector (BitVec.ofNat 8 (0xC7 + 8 * n)) = some (BitVec.ofNat 16 (8 * n)) := by
  decide

/-- A byte that inserts a restart address is that of an RST. -/
theorem insertedVector_none_or_rst : ∀ op : Byte,
    insertedVector op = none ∨ ∃ n < 8, op = BitVec.ofNat 8 (0xC7 + 8 * n) := by
  decide

/-- Settles O43: the bytes that insert a restart address are those of RST n. -/
theorem externalInterruptEntry : Obligations.ExternalInterruptEntry := by
  intro s op hr ha hop
  refine ⟨fun n hn hrst hc => ?_, fun hnot => step_refused_of_entry hr ha ?_⟩
  · exact step_enters_external hr hc ha hop (hrst ▸ insertedVector_rst n hn)
  · obtain hnone | ⟨n, hn, hrst⟩ := insertedVector_none_or_rst op
    · exact (State.entry_external hop).trans (State.enterInserted_none hnone)
    · exact absurd hrst (hnot n hn)

/-- Settles O46: requested and first in priority, TRAP is the accepted source. -/
theorem trapCannotBeDisabled : Obligations.TrapCannotBeDisabled := by
  intro s hr ht hp
  have hc : s.sample.candidate .trap = true := State.candidate_iff.2 ⟨s.sample.effective_trap.2 ht, .inr rfl⟩
  have ha : s.sample.accepted = some .trap := State.accepted_of_head hp hc
  refine ⟨fun hcut => ?_, fun _ hcut => State.boundary_resetInEntry hr hcut ha⟩
  obtain ⟨t, hstep, hpc, hpushed, hctl, -⟩ := step_enters_internal hr hcut ha rfl
  exact ⟨t, hstep, hpc, hpushed, by rw [hctl]; rfl, by rw [hctl]; rfl⟩

end Sys2Proof.Machine
end

section
/-! PROOFS. The invariant of the states of a run (60_exceptions.md R285; 00_scope.md R6), kept by each thing that a step can
be: settles O49. -/

namespace Sys2Proof.Machine

open Config (IntSource)

section
variable {s t : State}

/-- While EI_shadow is 0 the invariant says nothing of the control flip-flops. -/
theorem State.inv_of_no_shadow (hm : Memory.wf s.mem) (hp : s.params.wf) (hs : s.ctl.eiShadow = false) : s.Inv :=
  ⟨hm, by simp [hs], hp⟩

/-- Taking the environment's answer sets FF75 at most, of which the invariant does not speak. -/
theorem State.Inv.sample (h : s.Inv) : s.sample.Inv := by
  obtain ⟨hm, hs, hp⟩ := h
  exact ⟨hm, hs, hp⟩

theorem State.inv_resetEvent (hm : Memory.wf s.mem) (hp : s.params.wf) : s.resetEvent.Inv :=
  State.inv_of_no_shadow hm hp rfl

theorem State.inv_enter (hm : Memory.wf s.mem) (hp : s.params.wf) (v : Word) : (s.enter v).Inv :=
  State.inv_of_no_shadow (State.enter_wf hm v) hp rfl

theorem State.Inv.entry {src : IntSource} (h : s.Inv) (he : s.entry src = .next t) : t.Inv := by
  have ⟨hm, _, hp⟩ := h
  obtain ⟨v, -, rfl⟩ | ⟨_, v, -, -, -, rfl⟩ | ⟨-, -, rfl⟩ := State.entry_cases he
  · exact State.inv_enter (s := s.withCtl (s.ctl.served src)) hm hp v
  · exact State.inv_enter hm hp v
  · exact h

/-- Memory stays in canonical form: an instruction leaves what its accesses leave. -/
theorem exec_wf {i : Instr} (hm : Memory.wf s.mem) (he : exec i s = .next t) : Memory.wf t.mem := by
  obtain ⟨hmem, -⟩ := exec_writesOnBus i s t he
  rw [hmem]
  exact State.applyAccesses_wf hm _

/-- Of the instructions, only EI sets EI_shadow. -/
theorem exec_shadow {i : Instr} (hs : s.ctl.eiShadow = false) (he : exec i s = .next t) :
    t.ctl.eiShadow = false ∨ t.ctl = s.afterEi := by
  obtain ⟨-, hc⟩ | ⟨-, hc⟩ | ⟨-, hc⟩ | ⟨-, hc⟩ | ⟨-, hc⟩ := exec_ctl_cases he
  · exact .inl (hc ▸ hs)
  · exact .inr hc
  · exact .inl (hc ▸ hs)
  · exact .inl (hc ▸ hs)
  · exact .inl (hc ▸ hs)

/-- An instruction begins with EI_shadow 0 and is not executed in the Halt state; EI then sets EI_shadow only together with
IE, and only where EI_DELAY has it. -/
theorem inv_exec {i : Instr} (hm : Memory.wf s.mem) (hp : s.params.wf) (hs : s.ctl.eiShadow = false)
    (hh : s.ctl.halted = false) (he : exec i s = .next t) : t.Inv := by
  obtain ⟨-, -, -, hparams⟩ := (exec_framed i s t he).world
  have hm' := exec_wf hm he
  have hp' : t.params.wf := hparams ▸ hp
  obtain hs' | hc := exec_shadow hs he
  · exact State.inv_of_no_shadow hm' hp' hs'
  · refine ⟨hm', fun h => ?_, hp'⟩
    rw [hc] at h ⊢
    exact ⟨rfl, hh, hparams ▸ s.afterEi_eiShadow.1 h⟩

/-- The processor runs where an instruction is fetched. -/
theorem State.running_of_boundary_run (h : s.boundary = .run) : s.ctl.halted = false :=
  Bool.eq_false_iff.2 fun hh => (boundary_of_halted hh).1 h

/-- What every case of `step_cases` does to the invariant. -/
theorem State.Inv.step (h : s.Inv) (he : step s = .next t) : t.Inv := by
  have ⟨hm, _, hp⟩ := h
  obtain ⟨-, rfl⟩ | ⟨src, -, he⟩ | ⟨-, rfl⟩ | ⟨hb, he⟩ | ⟨_, c, -, rfl⟩ | ⟨c, -, rfl⟩ := step_cases he
  · exact State.inv_resetEvent hm hp
  · exact h.sample.entry he
  · exact h.sample
  · exact inv_exec (s := s.sample.begin) hm hp rfl (State.running_of_boundary_run (s := s.sample) hb) he
  · exact State.inv_resetEvent (State.abandonEntry_wf (s := s.sample) hm c) ((s.sample.abandonEntry_params c).symm ▸ hp)
  · exact State.inv_resetEvent (State.abandon_wf (s := s.sample.begin) hm _ c)
      ((s.sample.begin.abandon_params _ c).symm ▸ hp)

end

/-- Settles O49: each of the six things a step can be keeps the invariant. -/
theorem stepKeepsTheInvariant : Obligations.StepKeepsTheInvariant :=
  fun _ _ h he => h.step he

end Sys2Proof.Machine
end

section
/-! PROOFS. The reset event, and the timing table against the table of accesses (70_reset_and_hazards.md): settles O47 and
O52. -/

namespace Sys2Proof.Machine

open Config (IntSource)

/-! ## What a cut leaves (70 R311) -/

section
variable {s t : State}

theorem State.applyAccesses_regionAt (s : State) (l : List Access) (a : Word) :
    (s.applyAccesses l).regionAt a = s.regionAt a := by
  rw [State.applyAccesses_eq]
  rfl

/-- A write under way where there is no RAM leaves every byte. -/
theorem State.applyTorn_not_ram {a : Word} (h : s.regionAt a ≠ .ram) (v : Byte) (w : Option Byte) :
    s.applyTorn (some (.write a v)) w = s := by
  cases w with
  | none => rfl
  | some w => exact State.writeByte_not_ram h w

/-- A state with the bytes and the output events of accesses cut short meets the statement's description of them. -/
theorem cutShort_of_applyCut {l : List Access} {c : Cut} (hr : ∀ a, t.readByte a = (s.applyCut l c).readByte a)
    (ho : t.outTrace = (s.applyCut l c).outTrace) : CutShort s l c t := by
  have hcut {x : Option Access} (hx : l[c.done]? = x) :
      s.applyCut l c = (s.applyAccesses (l.take c.done)).applyTorn x c.torn := hx ▸ rfl
  refine ⟨fun a ha => (hr a).trans (State.applyCut_readByte s l c ha),
    fun a v ha => ⟨fun hleft => ?_, fun w hw hram => ?_⟩, ho.trans (s.applyCut_outTrace l c)⟩
  · rw [hr, hcut ha]
    obtain hnone | hrom := hleft
    · rw [hnone, State.applyTorn_none]
    · rw [State.applyTorn_not_ram (by rwa [State.applyAccesses_regionAt])]
  · rw [hr, hcut ha, hw]
    exact State.readByte_writeByte_same (by rwa [State.applyAccesses_regionAt]) w

theorem Flags.keepsFlags_replace (f new w : Flags) : KeepsFlags w f (f.replace new w) := by
  simp +contextual [KeepsFlags, Flags.replace]

/-- The reset event is the same on whatever a cut has left. -/
theorem afterReset_of_resetEvent (hp : t.params = s.params) (hq : t.sodTrace = s.sodTrace) : AfterReset s t.resetEvent :=
  ⟨congrArg Config.Params.resetPc hp, rfl, hq, hp⟩

/-! ## Which reset a step is (70 R310) -/

/-- A reset at the boundary, or at any time in the Halt state, has nothing to abandon. -/
theorem State.boundary_reset_of
    (h : s.inputs.reset = true ∨ (s.ctl.halted = true ∧ s.accepted = none ∧ s.inputs.cut ≠ none)) :
    s.boundary = .reset := by
  cases hr : s.inputs.reset with
  | true => exact State.boundary_reset hr
  | false =>
    obtain ⟨hh, ha, hc⟩ := h.resolve_left (by simp [hr])
    obtain ⟨c, hc⟩ := Option.ne_none_iff_exists'.1 hc
    rw [State.boundary_idle hr ha, hh, hc]
    rfl

theorem State.boundary_resetInRun {c : Cut} (hr : s.inputs.reset = false) (hc : s.inputs.cut = some c)
    (ha : s.accepted = none) (hh : s.ctl.halted = false) : s.boundary = .resetInRun c := by
  rw [State.boundary_idle hr ha, hh, hc]
  rfl

/-- The entry of an accepted source is refused only for an inserted byte that is no RST (60_exceptions.md R279). -/
theorem State.entry_completes {src : IntSource}
    (h : src = .external → ∃ n < 8, s.inputs.extOp = some (BitVec.ofNat 8 (0xC7 + 8 * n))) :
    ∃ t, s.entry src = .next t := by
  cases src with
  | external =>
    obtain ⟨n, hn, hop⟩ := h rfl
    exact ⟨_, (State.entry_external hop).trans (State.enterInserted_some (insertedVector_rst n hn))⟩
  | _ => exact ⟨_, State.entry_internal rfl⟩

/-- A defined instruction that reset cuts short is abandoned. -/
theorem step_abandons {c : Cut} (hr : s.nextInputs.reset = false) (hc : s.nextInputs.cut = some c)
    (ha : s.sample.accepted = none) (hh : s.ctl.halted = false) (hd : isDefined s.sample.begin.instrAt) :
    step s = .next (s.sample.begin.abandon s.sample.begin.instrAt c).resetEvent := by
  obtain ⟨_, he⟩ := everyDefinedInstructionCompletes _ s.sample.begin hd
  exact (step_resetInRun (State.boundary_resetInRun hr hc ha hh)).trans (State.resetInRun_next he c)

/-- An entry that reset cuts short is abandoned. -/
theorem step_abandonsEntry {src : IntSource} {c : Cut} (hr : s.nextInputs.reset = false)
    (hc : s.nextInputs.cut = some c) (ha : s.sample.accepted = some src)
    (hop : src = .external → ∃ n < 8, s.nextInputs.extOp = some (BitVec.ofNat 8 (0xC7 + 8 * n))) :
    step s = .next (s.sample.abandonEntry c).resetEvent := by
  obtain ⟨_, he⟩ := State.entry_completes (s := s.sample) hop
  exact (step_resetInEntry (State.boundary_resetInEntry hr hc ha)).trans (State.resetInEntry_next he c)

end

/-- Settles O47: the reset event at the boundary, after an abandoned instruction and after an abandoned entry. -/
theorem resetEventResults : Obligations.ResetEventResults := by
  refine fun s => ⟨fun h => ?_, fun c i hi hr hc ha hh hd => ?_, fun c src hr hc ha hop => ?_⟩
  · exact ⟨_, step_reset (State.boundary_reset_of (s := s.sample) h), afterReset_of_resetEvent rfl rfl, rfl, rfl, rfl, rfl,
      rfl, rfl⟩
  · subst hi
    refine ⟨_, step_abandons hr hc ha hh hd,
      afterReset_of_resetEvent (State.abandon_params _ _ c) (State.abandon_sodTrace _ _ c),
      cutShort_of_applyCut (fun _ => rfl) rfl, fun r hreg => Regs.replace_get_other _ _ hreg, fun hsp => ?_,
      Flags.keepsFlags_replace _ _ _⟩
    simp [hsp]
  · exact ⟨_, step_abandonsEntry hr hc ha hop,
      afterReset_of_resetEvent (State.abandonEntry_params _ c) (State.abandonEntry_sodTrace _ c),
      cutShort_of_applyCut (fun _ => rfl) rfl, State.abandonEntry_regs _ c, State.abandonEntry_flags _ c⟩

/-! ## The timing table (70 R330, R332) -/

/-- After one fetch, the cycles of the instruction that are not idle are those of its accesses. -/
def CyclesFollow (i : Instr) (s : State) : Prop :=
  ∃ x l, cycles i (taken i s.flags) = x :: l ∧ (x = .f ∨ x = .s) ∧
    l.filter (fun y => y != .b) = ((s.accesses i).tail).map Access.cycle

section
variable {i : Instr} {cc : Cond} (s : State)

theorem taken_of_condOf (h : condOf i = some cc) (f : Flags) : taken i f = f.cond cc := by
  simp only [taken, h]

/-- A conditional jump reads its third byte only where it is taken (20_memory.md R57). -/
theorem cyclesFollow_of_condJump (hc : condOf i = some cc) (hlen : (encode i).length = 3)
    (hd : s.dataAccesses i = []) (hcyc : ∀ go, cycles i go = if go then [.f, .r, .r] else [.f, .r]) :
    CyclesFollow i s := by
  unfold CyclesFollow
  rw [hcyc, State.accesses, State.operandAccesses, hlen, hd, taken_of_condOf hc]
  cases s.flags.cond cc with
  | true => exact ⟨_, _, rfl, .inl rfl, rfl⟩
  | false => exact ⟨_, _, rfl, .inl rfl, rfl⟩

/-- A conditional call reads its third byte and pushes only where it is taken. -/
theorem cyclesFollow_of_condCall (hc : condOf i = some cc) (hlen : (encode i).length = 3)
    (hd : s.dataAccesses i = if s.flags.cond cc then s.pushAccesses (s.nextPc 3) else [])
    (hcyc : ∀ go, cycles i go = if go then [.s, .r, .r, .w, .w] else [.s, .r]) : CyclesFollow i s := by
  unfold CyclesFollow
  rw [hcyc, State.accesses, State.operandAccesses, hlen, hd, taken_of_condOf hc]
  cases s.flags.cond cc with
  | true => exact ⟨_, _, rfl, .inr rfl, rfl⟩
  | false => exact ⟨_, _, rfl, .inr rfl, rfl⟩

/-- A conditional return pops only where it is taken. -/
theorem cyclesFollow_of_condReturn (hc : condOf i = some cc) (hlen : (encode i).length = 1)
    (hd : s.dataAccesses i = if s.flags.cond cc then s.popAccesses else [])
    (hcyc : ∀ go, cycles i go = if go then [.s, .r, .r] else [.s]) : CyclesFollow i s := by
  unfold CyclesFollow
  rw [hcyc, State.accesses, State.operandAccesses, hlen, hd, taken_of_condOf hc]
  cases s.flags.cond cc with
  | true => exact ⟨_, _, rfl, .inr rfl, rfl⟩
  | false => exact ⟨_, _, rfl, .inr rfl, rfl⟩

end

/-- Every defined instruction: the fetch has 6 T-states where it steps a pair, moves HL to PC or SP, pushes, calls or
conditionally returns, and 4 elsewhere. -/
theorem cyclesFollow {i : Instr} (hi : isDefined i) (s : State) : CyclesFollow i s := by
  cases i with
  | jnz | jz | jnc | jc | jpo | jpe | jp | jm => exact cyclesFollow_of_condJump s rfl rfl rfl fun _ => rfl
  | cnz | cz | cnc | cc | cpo | cpe | cp | cm => exact cyclesFollow_of_condCall s rfl rfl rfl fun _ => rfl
  | rnz | rz | rnc | rc | rpo | rpe | rp | rm => exact cyclesFollow_of_condReturn s rfl rfl rfl fun _ => rfl
  | inx | dcx | pchl | sphl | call | rst | pushRp | pushPsw => exact ⟨_, _, rfl, .inr rfl, rfl⟩
  | undefined08 | undefined10 | undefined18 | undefined28 | undefined38 | undefinedCB | undefinedD9 | undefinedDD
  | undefinedED | undefinedFD =>
    simp [isDefined, undefinedOpcodes] at hi
  | _ => exact ⟨_, _, rfl, .inl rfl, rfl⟩

/-- The printed T-states are the sum over the machine cycles; those printed for HLT are the least it can take (R330). -/
theorem tStates_eq_sum {i : Instr} (h : i ≠ .hlt) (go : Bool) : tStates i go = ((cycles i go).map Cycle.tStates).sum := by
  cases i with
  | hlt => exact absurd rfl h
  | jnz | jz | jnc | jc | jpo | jpe | jp | jm | cnz | cz | cnc | cc | cpo | cpe | cp | cm | rnz | rz | rnc | rc | rpo
  | rpe | rp | rm =>
    cases go <;> rfl
  | _ => rfl

/-- Settles O52: the two tables agree row by row, and the printed T-states are sums. -/
theorem timingTableMatchesTheBusTable : Obligations.TimingTableMatchesTheBusTable :=
  fun _ s hi => ⟨cyclesFollow hi s, fun h => tStates_eq_sum h _⟩

end Sys2Proof.Machine
end

section
/-! PROOFS. The sample words of the spec (95_test_vectors.md): each is the encoding of the instruction it stands for, and
one is cut off before its operand byte. Settles O4. -/

namespace Sys2Proof

/-- The encoding of a well-formed instruction, with no byte after it, decodes to it. -/
theorem decode_of_encode_eq {i : Instr} {bs : List Byte} (hi : i.WellFormed) (he : encode i = bs) :
    decode bs = .instr i [] := by
  rw [← he, ← List.append_nil (encode i)]
  exact decodeOfEncodeIsTheInstruction i [] hi

/-- A first byte that takes operand bytes is refused where none follows (30_encoding.md R98). -/
theorem decode_singleton_of_lengthOf_ne_one {op : Byte} (h : lengthOf op ≠ 1) : decode [op] = .truncated op := by
  unfold lengthOf at h
  cases hf : formOf op with
  | one i => exact absurd (congrArg Form.length hf) h
  | two f | three f => simp only [decode, hf]

/-- Settles O4: seven words are encodings, which the round trip O1 decodes; 1E takes an operand byte. -/
theorem sampleWordsDecode : Obligations.SampleWordsDecode :=
  ⟨decode_of_encode_eq rfl rfl, decode_of_encode_eq rfl rfl, decode_of_encode_eq rfl rfl, decode_of_encode_eq rfl rfl,
    decode_of_encode_eq rfl rfl, decode_of_encode_eq rfl rfl, decode_of_encode_eq rfl rfl,
    decode_singleton_of_lengthOf_ne_one (by decide)⟩

end Sys2Proof
end
